-- ==== Sys2Proof/Word.lean ====
section
/-!
DEFINITION. The word types of the programmable-oscillator-register-encoder (PORE). Widths: 00_scope.md rule R7.
-/

namespace Sys2Proof

/-- One byte of a bus transaction (20_memory.md R36). -/
abbrev Byte := BitVec 8

/-- The width of REG and DEVREG (REG_W, R7). -/
abbrev Half := BitVec 16

/-- The width of FREQ, of arg and of a response's data (FREQ_W, R7; R52; R57). -/
abbrev Word := BitVec 32

/-- A two-wire bus address (ADDR_W, R7). -/
abbrev BusAddr := BitVec 7

/-- A command word, op[35:32] arg[31:0] (CMD_W, R7; R52). -/
abbrev CmdWord := BitVec 36

/-- A response word, status[35:32] data[31:0] (RSP_W, R7; R57). -/
abbrev RspWord := BitVec 36

end Sys2Proof
end

