-- ==== Sys2Proof/Config.lean ====
section
/-!
DEFINITION. What an implementation fixes (00_scope.md rule R7) and the free values: what the spec leaves open and gives
no value for. A free value is a constant with no body, applied to the draw counter of State: nothing can evaluate it.
-/

namespace Sys2Proof

/-- The level of the output-enable line (10_state.md R10, R21). -/
inductive Level where
  | low
  | high
  deriving DecidableEq, Repr, Inhabited

/-- An environment operation's answer: Ok with what it delivers, or Err(e) (20_memory.md R33, R34; 42_device_session.md
R117). -/
inductive Answer (ε α : Type) where
  | ok (payload : α)
  | err (e : ε)
  deriving DecidableEq, Repr, Inhabited

/-- One octave band, inclusive on both ends, in hertz (41_frequency_encoder.md R91). -/
structure Band where
  lo : Nat
  hi : Nat
  deriving DecidableEq, Repr, Inhabited

/-- The parameters R7 marks OPEN that stay fixed from the block's making on; the OPEN strap adr_sel is an argument of each
reset instead (10_state.md R25). Params.wellFormed says which values R7 and R91 allow. -/
structure Params where
  /-- BANDS: the sixteen octave bands (R7, 41_frequency_encoder.md R91) -/
  bands : List Band
  /-- BUSERR_W: the bit width of the transport's error value, at most 32 (R7) -/
  busErrWidth : Nat
  /-- LINEERR_W: the bit width of the line's error value, at most 32 (R7) -/
  lineErrWidth : Nat
  deriving DecidableEq, Repr, Inhabited

/-- The transport's error value: opaque, never looked into (R33, R133); BUSERR_W bits, held zero-extended to the width of
a response's data (log entry 9). -/
abbrev BusErr := Word

/-- The line's error value: opaque, never looked into (R117, R134); LINEERR_W bits, held as the transport's (log entry 9). -/
abbrev LineErr := Word

/-- The transport's answer to a transaction, Ok or Err(e); the bytes of a read are DEVREG's (R20(b)). -/
abbrev BusAnswer := Answer BusErr Unit

/-- The line's answer to a LineSet (R117). -/
abbrev LineAnswer := Answer LineErr Unit

namespace Config

/-- ADDR_LOW: the address when the strap selects low (R7, R17). -/
def addrLow : BusAddr := 0x17#7

/-- ADDR_HIGH: the address when the strap selects high (R7, R17). -/
def addrHigh : BusAddr := 0x16#7

/-- F_MIN (R7): the lowest supported frequency. -/
def fMin : Nat := 1039

/-- F_MAX (R7): the highest supported frequency. -/
def fMax : Nat := 68030000

/-- K_DAC (R7): the constant of the DAC formula. -/
def kDac : Nat := 2078

/-- The default of BANDS: the table of 41_frequency_encoder.md R92, row by row. -/
def bands : List Band := [
  ⟨1039, 2077⟩,
  ⟨2078, 4155⟩,
  ⟨4156, 8311⟩,
  ⟨8312, 16623⟩,
  ⟨16624, 33247⟩,
  ⟨33248, 66495⟩,
  ⟨66496, 132991⟩,
  ⟨132992, 265983⟩,
  ⟨265984, 531967⟩,
  ⟨531968, 1063935⟩,
  ⟨1063936, 2127871⟩,
  ⟨2127872, 4255743⟩,
  ⟨4255744, 8511487⟩,
  ⟨8511488, 17022975⟩,
  ⟨17022976, 34045951⟩,
  ⟨34045952, 68030000⟩]

/-- The parameters of State.reset: BANDS at its default (R92; log entry 10); the error widths at the widest R7 allows, a
DESIGN CHOICE (log entry 9). -/
def params : Params := ⟨bands, 32, 32⟩

/-- FREE VALUE (log entry 7): the transport's answer where State lists none (93_implementation_defined.md U6: a draw of
the environment). -/
opaque freeBusAnswer : Nat → BusAnswer

/-- FREE VALUE (log entry 7): the line's answer where State lists none (U6). -/
opaque freeLineAnswer : Nat → LineAnswer

/-- FREE VALUE (log entry 8): DEVREG after a write that was not answered Ok (10_state.md R20(c), U5), and after a reset
during a command (R159, U15). -/
opaque freeDevreg : Nat → Half

/-- FREE VALUE (log entry 8): LINE after a line operation that was not answered Ok (10_state.md R21, U8), and after
every reset (R21, R24, U8). -/
opaque freeLine : Nat → Level

end Config

end Sys2Proof
end

