-- ==== Sys2Proof/Syntax.lean ====
section
/-!
DEFINITION. The commands as syntax: one constructor of Instr per row of spec/opcode_table.json (30_encoding.md rule R54),
and the assembler's lines (R62, R63).
-/

namespace Sys2Proof

/-- The output configuration: a closed enumeration of four variants (30_encoding.md R61; symbols R63). -/
inductive OutputConf where
  /-- 0, negative-edge clock -/
  | neg
  /-- 1, both edges (the source's ClkBoth) -/
  | both
  /-- 2, positive-edge clock -/
  | pos
  /-- 3, power-down/disabled -/
  | off
  deriving DecidableEq, Repr, Inhabited

/-- The fourteen mnemonics (R54). -/
inductive Mnemonic where
  | setoct | getoct | setdac | getdac | setcnf | getcnf | setfreq | getfreq | setconf
  | wrout | refresh | oen | odis | free
  deriving DecidableEq, Repr, Inhabited

/-- A command. Each operand has exactly the width of its slice (R53), so an operand that does not fit its field cannot
be written down. -/
inductive Instr where
  /-- SETOCT v (R73) -/
  | setoct (v : BitVec 4)
  /-- GETOCT (R74) -/
  | getoct
  /-- SETDAC v (R75) -/
  | setdac (v : BitVec 10)
  /-- GETDAC (R76) -/
  | getdac
  /-- SETCNF v (R77) -/
  | setcnf (v : BitVec 2)
  /-- GETCNF (R78) -/
  | getcnf
  /-- SETFREQ f (R99) -/
  | setfreq (f : Word)
  /-- GETFREQ (R100) -/
  | getfreq
  /-- SETCONF s (R111) -/
  | setconf (s : OutputConf)
  /-- WROUT (R112) -/
  | wrout
  /-- REFRESH (R114) -/
  | refresh
  /-- OEN (R118) -/
  | oen
  /-- ODIS (R119) -/
  | odis
  /-- FREE (R121) -/
  | free
  deriving DecidableEq, Repr, Inhabited

/-- The row of R54 a command belongs to. -/
def Instr.mnemonic : Instr → Mnemonic
  | .setoct _ => .setoct
  | .getoct => .getoct
  | .setdac _ => .setdac
  | .getdac => .getdac
  | .setcnf _ => .setcnf
  | .getcnf => .getcnf
  | .setfreq _ => .setfreq
  | .getfreq => .getfreq
  | .setconf _ => .setconf
  | .wrout => .wrout
  | .refresh => .refresh
  | .oen => .oen
  | .odis => .odis
  | .free => .free

/-- An operand as an assembler line writes it: a numeral, or for SETCONF a symbol (R62, R63). -/
inductive AsmOperand where
  | number (n : Nat)
  | symbol (c : OutputConf)
  deriving DecidableEq, Repr, Inhabited

/-- One command line of the assembler: a mnemonic and perhaps an operand (R62). -/
structure AsmLine where
  mnemonic : Mnemonic
  operand : Option AsmOperand
  deriving DecidableEq, Repr, Inhabited

end Sys2Proof
end

