-- ==== Sys2Proof/WellFormed.lean ====
section
/-!
DEFINITION. Checks on syntax: operands in the ranges of 30_encoding.md rule R53, assembler lines (R62, R63), and what
00_scope.md rule R7 and 41_frequency_encoder.md rule R91 ask of the parameters.
-/

namespace Sys2Proof

/-- How many values a command's operand may take; none where the command has no operand (R53, column "range"). -/
def Mnemonic.operandCount : Mnemonic → Option Nat
  | .setoct => some 16
  | .getoct => none
  | .setdac => some 1024
  | .getdac => none
  | .setcnf => some 4
  | .getcnf => none
  | .setfreq => some 4294967296
  | .getfreq => none
  | .setconf => some 4
  | .wrout => none
  | .refresh => none
  | .oen => none
  | .odis => none
  | .free => none

/-- A command is well formed when its operand is in the range of R53. The operand types make this hold of every Instr
(Laws/PerInstr.lean proves it constructor by constructor): R56's oversized operands exist in words only, where decode
refuses them. -/
def Instr.wellFormed : Instr → Bool
  | .setoct v => v.toNat < 16
  | .getoct => true
  | .setdac v => v.toNat < 1024
  | .getdac => true
  | .setcnf v => v.toNat < 4
  | .getcnf => true
  | .setfreq f => f.toNat < 4294967296
  | .getfreq => true
  | .setconf _ => true
  | .wrout => true
  | .refresh => true
  | .oen => true
  | .odis => true
  | .free => true

/-- R62: an operand stands exactly where the command has one. -/
def AsmLine.operandPresence (l : AsmLine) : Bool :=
  l.operand.isSome == l.mnemonic.operandCount.isSome

/-- R62: "An operand outside the range of rule R53 is an assembly error". -/
def AsmLine.operandRange (l : AsmLine) : Bool :=
  match l.operand, l.mnemonic.operandCount with
  | some (.number n), some k => n < k
  | _, _ => true

/-- R63: a symbol may stand for the operand of SETCONF only. -/
def AsmLine.symbolPlace (l : AsmLine) : Bool :=
  match l.operand with
  | some (.symbol _) => l.mnemonic == .setconf
  | some (.number _) => true
  | none => true

/-- An assembler line that names an encodable word (R62, R63). -/
def AsmLine.wellFormed (l : AsmLine) : Bool :=
  l.operandPresence && l.operandRange && l.symbolPlace

/-- R91(c): lo_i ≤ hi_i. -/
def Band.ordered (b : Band) : Bool := b.lo ≤ b.hi

/-- R91(d), (e) of two neighbouring bands: both ends increase, and there is no gap between them. -/
def Band.follows (b c : Band) : Bool := b.lo < c.lo && b.hi < c.hi && c.lo ≤ b.hi + 1

/-- R91(d), (e) along a table. -/
def bandsChained : List Band → Bool
  | [] => true
  | [_] => true
  | b :: c :: rest => b.follows c && bandsChained (c :: rest)

/-- R91: sixteen bands. -/
def bandsCount (t : List Band) : Bool := t.length == 16

/-- R91(a), (b): the lowest end is 1039, the highest 68 030 000. -/
def bandsEnds (t : List Band) : Bool :=
  t.head?.map Band.lo == some Config.fMin && t.getLast?.map Band.hi == some Config.fMax

/-- R91(a) to (e): what every table a model is given must satisfy. -/
def bandsWellFormed (t : List Band) : Bool :=
  bandsCount t && bandsEnds t && t.all Band.ordered && bandsChained t

/-- R91(f): the bands are a partition, each starting just above the one before it. -/
def bandsPartition : List Band → Bool
  | [] => true
  | [_] => true
  | b :: c :: rest => c.lo == b.hi + 1 && bandsPartition (c :: rest)

/-- R7: BUSERR_W and LINEERR_W are at most 32. -/
def Params.errorWidths (p : Params) : Bool := p.busErrWidth ≤ 32 && p.lineErrWidth ≤ 32

/-- The values R7 and R91 allow the parameters. -/
def Params.wellFormed (p : Params) : Bool := bandsWellFormed p.bands && p.errorWidths

end Sys2Proof
end

