-- ==== Sys2Proof/Decode.lean ====
section
/-!
DEFINITION. The command word: decoding, total on every 36-bit word (30_encoding.md rule R65), and encoding, both from the
tables of rules R52 to R54 and R61.
-/

namespace Sys2Proof

/-- The number of an output configuration variant (R61). -/
def OutputConf.number : OutputConf → BitVec 2
  | .neg => 0b00#2
  | .both => 0b01#2
  | .pos => 0b10#2
  | .off => 0b11#2

/-- The variant of a 2-bit value: "any 2-bit value maps to exactly one variant" (R61). -/
def OutputConf.ofNumber (v : BitVec 2) : OutputConf :=
  match v.toNat with
  | 0 => .neg
  | 1 => .both
  | 2 => .pos
  | _ => .off

/-- Column op of R54. -/
def Mnemonic.opcode : Mnemonic → BitVec 4
  | .setoct => 0x1#4
  | .getoct => 0x2#4
  | .setdac => 0x3#4
  | .getdac => 0x4#4
  | .setcnf => 0x5#4
  | .getcnf => 0x6#4
  | .setfreq => 0x7#4
  | .getfreq => 0x8#4
  | .setconf => 0x9#4
  | .wrout => 0xA#4
  | .refresh => 0xB#4
  | .oen => 0xC#4
  | .odis => 0xD#4
  | .free => 0xE#4

/-- Which command an opcode selects; none for the reserved opcodes 0x0 and 0xF (R54, R55). -/
def Mnemonic.ofOpcode (op : BitVec 4) : Option Mnemonic :=
  match op.toNat with
  | 0x1 => some .setoct
  | 0x2 => some .getoct
  | 0x3 => some .setdac
  | 0x4 => some .getdac
  | 0x5 => some .setcnf
  | 0x6 => some .getcnf
  | 0x7 => some .setfreq
  | 0x8 => some .getfreq
  | 0x9 => some .setconf
  | 0xA => some .wrout
  | 0xB => some .refresh
  | 0xC => some .oen
  | 0xD => some .odis
  | 0xE => some .free
  | _ => none

/-- The width n of a command's operand slice arg[n-1:0]; 0 where there is no operand (R53, R65). -/
def Mnemonic.operandWidth : Mnemonic → Nat
  | .setoct => 4
  | .getoct => 0
  | .setdac => 10
  | .getdac => 0
  | .setcnf => 2
  | .getcnf => 0
  | .setfreq => 32
  | .getfreq => 0
  | .setconf => 2
  | .wrout => 0
  | .refresh => 0
  | .oen => 0
  | .odis => 0
  | .free => 0

/-- The command of a mnemonic with operand arg[n-1:0], n its operand width (R65 step 4). -/
def Mnemonic.build (m : Mnemonic) (arg : Word) : Instr :=
  match m with
  | .setoct => .setoct (arg.extractLsb' 0 4)
  | .getoct => .getoct
  | .setdac => .setdac (arg.extractLsb' 0 10)
  | .getdac => .getdac
  | .setcnf => .setcnf (arg.extractLsb' 0 2)
  | .getcnf => .getcnf
  | .setfreq => .setfreq arg
  | .getfreq => .getfreq
  | .setconf => .setconf (OutputConf.ofNumber (arg.extractLsb' 0 2))
  | .wrout => .wrout
  | .refresh => .refresh
  | .oen => .oen
  | .odis => .odis
  | .free => .free

/-- Why a word is no command. Both are answered ILLEGAL (R55, R56). -/
inductive Reserved where
  /-- op is 0x0 or 0xF (R55) -/
  | opcode
  /-- a 1 in an arg bit outside the operand slice (R56) -/
  | argument
  deriving DecidableEq, Repr

/-- What a 36-bit word is: one command, or reserved (R65). -/
inductive Decoded where
  | command (i : Instr)
  | reserved (why : Reserved)
  deriving DecidableEq, Repr

/-- CMD[35:32] (R52). -/
def opField (w : CmdWord) : BitVec 4 := w.extractLsb' 32 4

/-- CMD[31:0] (R52). -/
def argField (w : CmdWord) : Word := w.extractLsb' 0 32

/-- R65, step by step. It reads no state. -/
def decode (w : CmdWord) : Decoded :=
  match Mnemonic.ofOpcode (opField w) with
  | none => .reserved .opcode
  | some m =>
    if argField w >>> m.operandWidth = 0#32 then .command (m.build (argField w)) else .reserved .argument

/-- The arg of a command: its operand in the low bits, every other bit 0 (R52, R53). -/
def Instr.arg : Instr → Word
  | .setoct v => v.setWidth 32
  | .getoct => 0#32
  | .setdac v => v.setWidth 32
  | .getdac => 0#32
  | .setcnf v => v.setWidth 32
  | .getcnf => 0#32
  | .setfreq f => f
  | .getfreq => 0#32
  | .setconf s => s.number.setWidth 32
  | .wrout => 0#32
  | .refresh => 0#32
  | .oen => 0#32
  | .odis => 0#32
  | .free => 0#32

/-- The word of a command: {op, arg} (R52). -/
def encode (i : Instr) : CmdWord := i.mnemonic.opcode ++ i.arg

/-- Column mask of R54. -/
def Mnemonic.mask : Mnemonic → CmdWord
  | .setoct => 0xFFFFFFFF0#36
  | .getoct => 0xFFFFFFFFF#36
  | .setdac => 0xFFFFFFC00#36
  | .getdac => 0xFFFFFFFFF#36
  | .setcnf => 0xFFFFFFFFC#36
  | .getcnf => 0xFFFFFFFFF#36
  | .setfreq => 0xF00000000#36
  | .getfreq => 0xFFFFFFFFF#36
  | .setconf => 0xFFFFFFFFC#36
  | .wrout => 0xFFFFFFFFF#36
  | .refresh => 0xFFFFFFFFF#36
  | .oen => 0xFFFFFFFFF#36
  | .odis => 0xFFFFFFFFF#36
  | .free => 0xFFFFFFFFF#36

/-- Column match of R54. -/
def Mnemonic.pattern : Mnemonic → CmdWord
  | .setoct => 0x100000000#36
  | .getoct => 0x200000000#36
  | .setdac => 0x300000000#36
  | .getdac => 0x400000000#36
  | .setcnf => 0x500000000#36
  | .getcnf => 0x600000000#36
  | .setfreq => 0x700000000#36
  | .getfreq => 0x800000000#36
  | .setconf => 0x900000000#36
  | .wrout => 0xA00000000#36
  | .refresh => 0xB00000000#36
  | .oen => 0xC00000000#36
  | .odis => 0xD00000000#36
  | .free => 0xE00000000#36

/-- The instruction the decoder reads from an opcode-table word. A command is one 36-bit word, so the table's bit 0 is
bit 0 of CMD; a number with a bit above 35 is no word of the port (log entry 17). -/
def decodeTableWord (nbits w : Nat) : Option Instr :=
  if w % 2 ^ nbits < 2 ^ 36 then
    match decode (BitVec.ofNat 36 (w % 2 ^ nbits)) with
    | .command i => some i
    | .reserved _ => none
  else none

end Sys2Proof
end

