-- ==== Sys2Proof/Machine/State.lean ====
section
/-!
DEFINITION. The machine's state, everything 10_state.md rule R10 names and what a run's record holds
(70_reset_and_hazards.md rule R172), and its value after reset (10_state.md rule R24).
-/

namespace Sys2Proof.Machine

/-- The seven statuses (30_encoding.md R59); status numbers 0x7 to 0xF are never produced (U14). -/
inductive Status where
  | ok
  | tooLow
  | tooHigh
  | busError
  | lineError
  | illegal
  | released
  deriving DecidableEq, Repr, Inhabited

/-- One response (R57). -/
structure Response where
  status : Status
  data : Word
  deriving DecidableEq, Repr, Inhabited

/-- One bus transaction or line operation as the record of a run shows it (R172), with the environment's answer; none is
an operation that is never answered (R146). -/
inductive EnvEvent where
  /-- BusWrite(addr, [b0, b1]), b0 transmitted first (20_memory.md R33) -/
  | busWrite (addr : BusAddr) (b0 b1 : Byte) (answer : Option BusAnswer)
  /-- BusRead(addr, 2); Ok delivers (b0, b1), b0 received first (R34) -/
  | busRead (addr : BusAddr) (answer : Option (Answer BusErr (Byte × Byte)))
  /-- LineSet(level) (42_device_session.md R117) -/
  | lineSet (level : Level) (answer : Option LineAnswer)
  deriving DecidableEq, Repr

/-- A move from outside PORE (00_scope.md R5; 70_reset_and_hazards.md R173). -/
inductive Input where
  /-- the host presents a command word -/
  | command (w : CmdWord)
  /-- the host applies rst with the strap adr_sel; false is low-select (R158) -/
  | reset (adrSel : Bool)
  /-- another bus master sets DEVREG (10_state.md R20(d)) -/
  | otherMaster (v : Half)
  deriving DecidableEq, Repr

/-- Why the machine stops. -/
inductive Fault where
  /-- Raised by step only: the host's next move is a command word while a command is in progress that is never answered.
  R173: "PORE does not accept it; a model gives the host no such move". Safe: the model has no step there. -/
  | commandInProgress
  deriving DecidableEq, Repr

/-- Why a command has no meaning. -/
inductive Refusal where
  /-- Raised by exec's arm of a command without a meaning; no arm of this model does. Safe. -/
  | notModelled (mnemonic : String)
  deriving DecidableEq, Repr

/-- The state. -/
structure State where
  /-- REG, the cached register (R11, R15) -/
  reg : Half
  /-- FREQ, the last frequency successfully requested, in hertz (R12) -/
  freq : Word
  /-- ADDR, constant from one reset to the next (R17) -/
  addr : BusAddr
  /-- REL, true once FREE has released the bus (R18) -/
  rel : Bool
  /-- DEVREG, the target's committed register: environment (R20) -/
  devreg : Half
  /-- LINE, the output-enable line's level: environment (R21) -/
  line : Level
  /-- a command is in progress whose bus transaction or line operation is never answered (R27, R146) -/
  hung : Bool
  /-- the responses so far, newest first (R57, R172) -/
  responses : List Response
  /-- the bus transactions and line operations so far, newest first (R172) -/
  activity : List EnvEvent
  /-- the moves to come of the host and of other masters, next first (R5, R173) -/
  inputs : List Input
  /-- the transport's answers to come, next first; none: it never answers that transaction (R33, R34, R146) -/
  busAnswers : List (Option BusAnswer)
  /-- the line's answers to come, next first; none: it never answers that operation (R117, R146) -/
  lineAnswers : List (Option LineAnswer)
  /-- the OPEN parameters of 00_scope.md R7: arguments of the step, held here because step has no other argument; no step
  changes them (R25; log entry 10) -/
  params : Params
  /-- the model's own: how many free values have been drawn (log entry 8) -/
  draws : Nat
  deriving DecidableEq, Repr

/-- The machine right after reset (R24). DESIGN CHOICE: adr_sel = 0, so ADDR = 0x17 (log entry 6, unsafe); DEVREG = 0
(log entry 4, unsafe) and LINE = Low (log entry 5, unsafe), which the spec leaves unspecified; the parameters at
their defaults (log entries 9, 10); no answer of the environment is listed (log entry 7); the draw counter starts at 0
(log entry 8). State.resetWith (Machine/Ports.lean) is the state after reset for every value of what is open here. -/
def State.reset : State where
  reg := 0x0000#16
  freq := 1039#32
  addr := 0x17#7
  rel := false
  devreg := 0x0000#16
  line := .low
  hung := false
  responses := []
  activity := []
  inputs := []
  busAnswers := []
  lineAnswers := []
  params := Config.params
  draws := 0

/-- The output bus_own = NOT REL (R18). -/
def State.busOwn (s : State) : Bool := !s.rel

end Sys2Proof.Machine
end

