-- ==== Sys2Proof/Machine/Flags.lean ====
section
/-!
DEFINITION. PORE has no flags: "The only result indication is the 4-bit status of the response word" (10_state.md rule
R19). This file gives that status its number and the response its word (30_encoding.md rules R57, R59).
-/

namespace Sys2Proof.Machine

/-- The status numbers of R59. -/
def Status.code : Status → BitVec 4
  | .ok => 0x0#4
  | .tooLow => 0x1#4
  | .tooHigh => 0x2#4
  | .busError => 0x3#4
  | .lineError => 0x4#4
  | .illegal => 0x5#4
  | .released => 0x6#4

/-- The 36-bit response word {status, data} (R57). -/
def Response.word (r : Response) : RspWord := r.status.code ++ r.data

end Sys2Proof.Machine
end

