-- ==== Sys2Proof/Machine/Operands.lean ====
section
/-!
DEFINITION. The operand forms on REG: its three fields and the two generic field operations (40_register_model.md rules
R70 to R72), and its two bytes on the bus (20_memory.md rule R35, 30_encoding.md rule R51).
-/

namespace Sys2Proof.Machine

/-- The three fields of REG (R15). -/
inductive Field where
  | oct
  | dac
  | cnf
  deriving DecidableEq, Repr

/-- Column SHIFT of R70. -/
def Field.shift : Field → Nat
  | .oct => 12
  | .dac => 2
  | .cnf => 0

/-- Column WIDTH of R70. -/
def Field.width : Field → Nat
  | .oct => 4
  | .dac => 10
  | .cnf => 2

/-- Column MASK of R70. -/
def Field.mask : Field → Half
  | .oct => 0xF000#16
  | .dac => 0x0FFC#16
  | .cnf => 0x0003#16

/-- set_field (R71): clears the field's mask bits, then ORs in the value shifted into position. It checks no range. -/
def setField (F : Field) (value : Half) (reg : Half) : Half :=
  (reg &&& ~~~F.mask) ||| (value <<< F.shift)

/-- get_field (R72): masks and right-shifts. -/
def getField (F : Field) (reg : Half) : Half := (reg &&& F.mask) >>> F.shift

/-- The byte of the register that crosses the bus first, bits 15 to 8 (R35, R51). -/
def firstByte (reg : Half) : Byte := reg.extractLsb' 8 8

/-- The byte that crosses the bus second, bits 7 to 0 (R35, R51). -/
def secondByte (reg : Half) : Byte := reg.extractLsb' 0 8

/-- The register of two received bytes, {b0, b1} (R35). -/
def ofBytes (b0 b1 : Byte) : Half := b0 ++ b1

end Sys2Proof.Machine
end

