-- ==== Sys2Proof/Machine/Ops.lean ====
section
/-!
DEFINITION. The shared operations: updates of one piece of state, responding and raising an error
(60_exceptions.md rule R140), the RELEASED check every command goes through (42_device_session.md rule R122), and the
environment's operations BusWrite, BusRead and LineSet (20_memory.md rules R33, R34; 42_device_session.md rule R117).
-/

namespace Sys2Proof.Machine

/-- REG <- v. -/
def State.setReg (v : Half) (s : State) : State := { s with reg := v }

/-- FREQ <- f. -/
def State.setFreq (f : Word) (s : State) : State := { s with freq := f }

/-- REL <- r. -/
def State.setRel (r : Bool) (s : State) : State := { s with rel := r }

/-- DEVREG <- v, by the environment. -/
def State.setDevreg (v : Half) (s : State) : State := { s with devreg := v }

/-- LINE <- l, by the environment. -/
def State.setLine (l : Level) (s : State) : State := { s with line := l }

/-- A command in progress is never answered, or no longer in progress. -/
def State.setHung (h : Bool) (s : State) : State := { s with hung := h }

/-- The host's and the other masters' moves to come. -/
def State.setInputs (l : List Input) (s : State) : State := { s with inputs := l }

/-- One more operation on the run's record (R172). -/
def State.record (e : EnvEvent) (s : State) : State := { s with activity := e :: s.activity }

/-- The transport's next answer is used up. -/
def State.useBusAnswer (s : State) : State := { s with busAnswers := s.busAnswers.tail }

/-- The line's next answer is used up. -/
def State.useLineAnswer (s : State) : State := { s with lineAnswers := s.lineAnswers.tail }

/-- The next free values have another number. -/
def State.draw (s : State) : State := { s with draws := s.draws + 1 }

/-- respond(status, data): the command ends and the host receives the response (R8, R57). -/
def State.respond (st : Status) (data : Word) (s : State) : State :=
  { s with responses := ⟨st, data⟩ :: s.responses }

/-- TAKING AN EXCEPTION, raise Status(info): the response carries the status and the data, and "Nothing else happens: no
state is saved anywhere, no mode changes" (R8, R140). There is no return from it: "no return-from-trap command and
nothing to restore" (R142). -/
def State.raise (st : Status) (info : Word) (s : State) : State := s.respond st info

/-- What every legal command does first: with REL = 1 it is answered RELEASED and has no effect (R122, R136, R139(2));
otherwise its own rule applies. -/
def whenOwned (body : State → State) (s : State) : Host.Outcome State Fault Refusal :=
  .next (if s.rel then s.raise .released 0#32 else body s)

/-- An error value at its type's width, zero-extended: zext_32 of R133 and R134 for a type of w bits (R7; log entry 9). -/
def errorAtWidth (w : Nat) (e : Word) : Word := (e.setWidth w).setWidth 32

/-- An answer with its error at the width w. -/
def answerAtWidth {α : Type} (w : Nat) : Answer Word α → Answer Word α
  | .ok a => .ok a
  | .err e => .err (errorAtWidth w e)

/-- What the transport answers to the next transaction; none: it never answers (R146). Where no answer is listed it is a
free value, Ok or Err (log entry 7). An error has BUSERR_W bits (R7). -/
def State.nextBusAnswer (s : State) : Option BusAnswer :=
  match s.busAnswers with
  | [] => some (answerAtWidth s.params.busErrWidth (Config.freeBusAnswer s.draws))
  | a :: _ => a.map (answerAtWidth s.params.busErrWidth)

/-- What the line answers to the next operation; as for the transport, with LINEERR_W (log entry 7). -/
def State.nextLineAnswer (s : State) : Option LineAnswer :=
  match s.lineAnswers with
  | [] => some (answerAtWidth s.params.lineErrWidth (Config.freeLineAnswer s.draws))
  | a :: _ => a.map (answerAtWidth s.params.lineErrWidth)

/-- BusWrite(addr, [b0, b1]) (R33): DEVREG becomes {b0, b1} when the transport answers Ok, and is any value otherwise
(R20(a), (c); log entry 8). -/
def busWrite (addr : BusAddr) (b0 b1 : Byte) (s : State) : Option BusAnswer × State :=
  let left : Half :=
    match s.nextBusAnswer with
    | some (.ok _) => ofBytes b0 b1
    | some (.err _) => Config.freeDevreg s.draws
    | none => Config.freeDevreg s.draws
  (s.nextBusAnswer, (((s.setDevreg left).record (.busWrite addr b0 b1 s.nextBusAnswer)).useBusAnswer).draw)

/-- What BusRead delivers: on Ok the two bytes of DEVREG as it stands (R20(b), R34, R35). -/
def State.readAnswer (s : State) : Option (Answer BusErr (Byte × Byte)) :=
  match s.nextBusAnswer with
  | some (.ok _) => some (.ok (firstByte s.devreg, secondByte s.devreg))
  | some (.err e) => some (.err e)
  | none => none

/-- BusRead(addr, 2) (R34). It does not change DEVREG (R20(b), R40). -/
def busRead (addr : BusAddr) (s : State) : Option (Answer BusErr (Byte × Byte)) × State :=
  (s.readAnswer, ((s.record (.busRead addr s.readAnswer)).useBusAnswer).draw)

/-- LineSet(level) (R117): LINE becomes the level when the line answers Ok, and is either level otherwise (R21; log
entry 8). -/
def lineSet (level : Level) (s : State) : Option LineAnswer × State :=
  let left : Level :=
    match s.nextLineAnswer with
    | some (.ok _) => level
    | some (.err _) => Config.freeLine s.draws
    | none => Config.freeLine s.draws
  (s.nextLineAnswer, (((s.setLine left).record (.lineSet level s.nextLineAnswer)).useLineAnswer).draw)

/-- How a command with one environment operation ends: on Ok its effect and (OK, 0); on Err(e) the error status with
e, unchanged (R133, R134); never answered, the command gives no response and stays in progress (R146). -/
def settle {α : Type} (error : Status) (onOk : α → State → State) :
    Option (Answer Word α) × State → State
  | (some (.ok a), s) => (onOk a s).respond .ok 0#32
  | (some (.err e), s) => s.raise error e
  | (none, s) => s.setHung true

end Sys2Proof.Machine
end

