-- ==== Sys2Proof/Machine/RegisterModel.lean ====
section
/-!
DEFINITION. The register model's commands SETOCT, GETOCT, SETDAC, GETDAC, SETCNF, GETCNF (40_register_model.md rules R73
to R78), over the two generic operations set_field and get_field.
-/

namespace Sys2Proof.Machine

/-- A field setter: set_field on REG, then (OK, 0) (R71, R60). -/
def setFieldCommand (F : Field) (value : Half) (s : State) : State :=
  (s.setReg (setField F value s.reg)).respond .ok 0#32

/-- A field getter: (OK, zext_32(get_field)) (R72, R60). -/
def getFieldCommand (F : Field) (s : State) : State :=
  s.respond .ok ((getField F s.reg).setWidth 32)

/-- SETOCT v (R73). -/
def execSetoct (v : BitVec 4) (s : State) : Host.Outcome State Fault Refusal :=
  whenOwned (setFieldCommand .oct (v.setWidth 16)) s

/-- GETOCT (R74). -/
def execGetoct (s : State) : Host.Outcome State Fault Refusal :=
  whenOwned (getFieldCommand .oct) s

/-- SETDAC v (R75). -/
def execSetdac (v : BitVec 10) (s : State) : Host.Outcome State Fault Refusal :=
  whenOwned (setFieldCommand .dac (v.setWidth 16)) s

/-- GETDAC (R76). -/
def execGetdac (s : State) : Host.Outcome State Fault Refusal :=
  whenOwned (getFieldCommand .dac) s

/-- SETCNF v (R77). -/
def execSetcnf (v : BitVec 2) (s : State) : Host.Outcome State Fault Refusal :=
  whenOwned (setFieldCommand .cnf (v.setWidth 16)) s

/-- GETCNF (R78). -/
def execGetcnf (s : State) : Host.Outcome State Fault Refusal :=
  whenOwned (getFieldCommand .cnf) s

end Sys2Proof.Machine
end

