-- ==== Sys2Proof/Machine/DeviceSession.lean ====
section
/-!
DEFINITION. The device session's commands SETCONF, WROUT, REFRESH, OEN, ODIS, FREE (42_device_session.md rules R111 to
R122).
-/

namespace Sys2Proof.Machine

/-- SETCONF s (R111). -/
def execSetconf (c : OutputConf) (s : State) : Host.Outcome State Fault Refusal :=
  whenOwned (setFieldCommand .cnf (c.number.setWidth 16)) s

/-- WROUT (R112, R113): one BusWrite of REG, most significant byte first. -/
def execWrout (s : State) : Host.Outcome State Fault Refusal :=
  whenOwned (fun s =>
    settle .busError (fun _ t => t) (busWrite s.addr (firstByte s.reg) (secondByte s.reg) s)) s

/-- REFRESH (R114 to R116): one BusRead, on success into all of REG. -/
def execRefresh (s : State) : Host.Outcome State Fault Refusal :=
  whenOwned (fun s =>
    settle .busError (fun bytes t => t.setReg (ofBytes bytes.1 bytes.2)) (busRead s.addr s)) s

/-- OEN (R118). -/
def execOen (s : State) : Host.Outcome State Fault Refusal :=
  whenOwned (fun s => settle .lineError (fun _ t => t) (lineSet .high s)) s

/-- ODIS (R119). -/
def execOdis (s : State) : Host.Outcome State Fault Refusal :=
  whenOwned (fun s => settle .lineError (fun _ t => t) (lineSet .low s)) s

/-- FREE (R121). -/
def execFree (s : State) : Host.Outcome State Fault Refusal :=
  whenOwned (fun s => (s.setRel true).respond .ok 0#32) s

end Sys2Proof.Machine
end

