-- ==== Sys2Proof/Machine/FrequencyEncoder.lean ====
section
/-!
DEFINITION. The frequency encoder: octave lookup (41_frequency_encoder.md rule R93), DAC computation (R95), and the
commands SETFREQ and GETFREQ (R99, R100).
-/

namespace Sys2Proof.Machine

/-- What octave lookup answers: a band's index, or one of the two frequency errors (R90, R94). -/
inductive Octave where
  | band (i : Nat)
  | tooLow
  | tooHigh
  deriving DecidableEq, Repr

/-- A frequency lies in a band, both ends included (R91, R93). -/
def inBand (f : Nat) (b : Band) : Bool := b.lo ≤ f && f ≤ b.hi

/-- octave_lookup(f) (R93): the first band that contains f; failing that, TooLow below the table and TooHigh otherwise.
A table that meets R91(a) to (e) leaves nothing else (log entry 19). -/
def octaveLookup (table : List Band) (f : Nat) : Octave :=
  match table.findIdx? (inBand f) with
  | some i => .band i
  | none => if table.head?.any (fun b => f < b.lo) then .tooLow else .tooHigh

/-- N div f of R95: exact, at no width (R98). -/
def dacQuotient (f oct : Nat) : Nat := (Config.kDac <<< (10 + oct)) / f

/-- d of R95: a signed integer, not reduced. -/
def dacExact (f oct : Nat) : Int := 2048 - (dacQuotient f oct : Int)

/-- dac_compute(f, oct) (R95): the low 10 bits of d. -/
def dacCompute (f oct : Nat) : BitVec 10 := BitVec.ofInt 10 (dacExact f oct)

/-- REG with OCT and DAC packed in, CNF kept: the two set_field of R99. -/
def packFreq (oct : Nat) (dac : BitVec 10) (reg : Half) : Half :=
  setField .dac (dac.setWidth 16) (setField .oct (BitVec.ofNat 16 oct) reg)

/-- The body of SETFREQ (R99), with the band table the block was given (R7, R91). -/
def setFreqCommand (f : Word) (s : State) : State :=
  match octaveLookup s.params.bands f.toNat with
  | .tooLow => s.raise .tooLow 0#32
  | .tooHigh => s.raise .tooHigh 0#32
  | .band oct =>
    let t := packFreq oct (dacCompute f.toNat oct) s.reg
    ((s.setReg t).setFreq f).respond .ok (t.setWidth 32)

/-- SETFREQ f (R99). -/
def execSetfreq (f : Word) (s : State) : Host.Outcome State Fault Refusal :=
  whenOwned (setFreqCommand f) s

/-- GETFREQ (R100): FREQ, never a value derived from REG. -/
def execGetfreq (s : State) : Host.Outcome State Fault Refusal :=
  whenOwned (fun s => s.respond .ok s.freq) s

end Sys2Proof.Machine
end

