-- ==== Sys2Proof/Machine/Dispatch.lean ====
section
/-!
DEFINITION. One arm per command: the meaning of an accepted command, in the state after its word was taken from the port.
-/

namespace Sys2Proof.Machine

def exec (i : Instr) (s : State) : Host.Outcome State Fault Refusal :=
  match i with
  | .setoct v => Sys2Proof.Machine.execSetoct v s
  | .getoct => Sys2Proof.Machine.execGetoct s
  | .setdac v => Sys2Proof.Machine.execSetdac v s
  | .getdac => Sys2Proof.Machine.execGetdac s
  | .setcnf v => Sys2Proof.Machine.execSetcnf v s
  | .getcnf => Sys2Proof.Machine.execGetcnf s
  | .setfreq f => Sys2Proof.Machine.execSetfreq f s
  | .getfreq => Sys2Proof.Machine.execGetfreq s
  | .setconf c => Sys2Proof.Machine.execSetconf c s
  | .wrout => Sys2Proof.Machine.execWrout s
  | .refresh => Sys2Proof.Machine.execRefresh s
  | .oen => Sys2Proof.Machine.execOen s
  | .odis => Sys2Proof.Machine.execOdis s
  | .free => Sys2Proof.Machine.execFree s

end Sys2Proof.Machine
end

