-- ==== Sys2Proof/Machine/Ports.lean ====
section
/-!
DEFINITION. What happens at PORE's ports between commands: the host's reset (70_reset_and_hazards.md rules R155 to R159),
a reserved word (30_encoding.md rules R55, R56), another bus master's write (10_state.md rule R20(d)), and which of these
is next.
-/

namespace Sys2Proof.Machine

/-- ADDR from the strap: 0 selects 0x17, 1 selects 0x16 (R17, R158). -/
def strapAddr (adrSel : Bool) : BusAddr := if adrSel then Config.addrHigh else Config.addrLow

/-- PORE's own state takes its reset values; the environment is not touched (R24, R155, R156). -/
def poreReset (adrSel : Bool) (s : State) : State :=
  { s with reg := 0x0000#16, freq := BitVec.ofNat 32 Config.fMin, addr := strapAddr adrSel, rel := false }

/-- A command that is never answered is over (R146), and DEVREG is then a free value (R159; log entry 11); with no command
in progress nothing happens. -/
def endHang (s : State) : State :=
  if s.hung then (s.setHung false).setDevreg (Config.freeDevreg s.draws) else s

/-- The host's reset, between commands or during one that is never answered. DEVREG keeps its value between commands (R24,
R156). LINE is unspecified after every reset, that is any level, and so a free value (R21, R24, U8; log entry 5); PORE
performs no line operation (R156). -/
def hostReset (adrSel : Bool) (s : State) : State :=
  ((endHang (poreReset adrSel s)).setLine (Config.freeLine s.draws)).draw

/-- The machine right after reset (R24) with everything an argument that R7 marks OPEN or R24 leaves unspecified: the
parameters p, the strap, and what DEVREG and LINE hold. State.reset is one of these. -/
def State.resetWith (p : Params) (adrSel : Bool) (d : Half) (l : Level) : State :=
  { poreReset adrSel State.reset with params := p, devreg := d, line := l }

/-- What step does next. -/
inductive Move where
  /-- nothing is presented -/
  | idle
  /-- PORE has accepted a legal command word and runs the command in the state given -/
  | run (i : Instr) (s : State)
  /-- a move that is complete in the state given -/
  | done (s : State)
  /-- a command word while a command is in progress: not accepted (R173) -/
  | blocked
  deriving DecidableEq, Repr

/-- The next move. A command word is accepted only when no command is in progress (R14, R173); it is decoded before REL
is looked at, and a reserved word gives ILLEGAL (R65, R135, R139(1)). -/
def nextMove (s : State) : Move :=
  match s.inputs with
  | [] => .idle
  | .command w :: rest =>
    if s.hung then .blocked
    else
      match decode w with
      | .command i => .run i (s.setInputs rest)
      | .reserved _ => .done ((s.setInputs rest).raise .illegal 0#32)
  | .reset adrSel :: rest => .done (hostReset adrSel (s.setInputs rest))
  | .otherMaster v :: rest => .done ((s.setInputs rest).setDevreg v)

/-- A table word presented on the command port: nothing is in progress and the word is the host's next move. -/
def presentWord (nbits w : Nat) (s : State) : State :=
  (s.setHung false).setInputs (.command (BitVec.ofNat 36 (w % 2 ^ nbits)) :: s.inputs)

end Sys2Proof.Machine
end

