-- ==== Sys2Proof/Machine/Step.lean ====
section
/-!
DEFINITION. One step: the next move of the host or of another master, and for a command word all of the command
(00_scope.md rule R6: one command at a time, complete before the next).
-/

namespace Sys2Proof.Machine

/-- One step. With nothing presented PORE does nothing (R14, R173; log entry 2). -/
def step (s : State) : Host.Outcome State Fault Refusal :=
  match nextMove s with
  | .idle => .next s
  | .run i t => exec i t
  | .done t => .next t
  | .blocked => .fault .commandInProgress

/-- The command word w placed where step takes its next command: at the head of the host's moves. -/
def State.withFetchWord (s : State) (nbits w : Nat) : State := presentWord nbits w s

end Sys2Proof.Machine
end

