-- ==== Sys2Proof/Machine/Assembly.lean ====
section
/-!
DEFINITION. The assembler syntax of 30_encoding.md rules R62 and R63: one command per line, the mnemonic in capitals,
one space and a numeral (or, for SETCONF, a symbol), and comments from a semicolon on.
-/

namespace Sys2Proof.Machine

/-- The mnemonics as they are written (R54, R62). -/
def mnemonicNames : List (List Char × Mnemonic) := [
  ("SETOCT".toList, .setoct), ("GETOCT".toList, .getoct), ("SETDAC".toList, .setdac), ("GETDAC".toList, .getdac),
  ("SETCNF".toList, .setcnf), ("GETCNF".toList, .getcnf), ("SETFREQ".toList, .setfreq),
  ("GETFREQ".toList, .getfreq), ("SETCONF".toList, .setconf), ("WROUT".toList, .wrout),
  ("REFRESH".toList, .refresh), ("OEN".toList, .oen), ("ODIS".toList, .odis), ("FREE".toList, .free)]

/-- The symbols of the output configurations (R63). -/
def confNames : List (List Char × OutputConf) := [
  ("NEG".toList, .neg), ("BOTH".toList, .both), ("POS".toList, .pos), ("OFF".toList, .off)]

/-- A digit's value; hexadecimal digits in either case (log entry 20). -/
def digitValue (c : Char) : Option Nat :=
  if '0' ≤ c && c ≤ '9' then some (c.toNat - '0'.toNat)
  else if 'A' ≤ c && c ≤ 'F' then some (c.toNat - 'A'.toNat + 10)
  else if 'a' ≤ c && c ≤ 'f' then some (c.toNat - 'a'.toNat + 10)
  else none

/-- The digits of a numeral in a base, most significant first. -/
def digitsValue (base acc : Nat) : List Char → Option Nat
  | [] => some acc
  | c :: cs =>
    match digitValue c with
    | some d => if d < base then digitsValue base (acc * base + d) cs else none
    | none => none

/-- A decimal, 0x hexadecimal or 0b binary numeral (R62). -/
def numeral : List Char → Option Nat
  | [] => none
  | ['0', 'x'] => none
  | ['0', 'b'] => none
  | '0' :: 'x' :: cs => digitsValue 16 0 cs
  | '0' :: 'b' :: cs => digitsValue 2 0 cs
  | c :: cs => digitsValue 10 0 (c :: cs)

/-- An operand: a symbol or a numeral (R62, R63). -/
def operandOf (cs : List Char) : Option AsmOperand :=
  match confNames.lookup cs with
  | some c => some (.symbol c)
  | none => (numeral cs).map .number

/-- A line without its comment and without the spaces before the comment. -/
def lineText (cs : List Char) : List Char :=
  ((cs.takeWhile (· != ';')).reverse.dropWhile (· == ' ')).reverse

/-- What a line of a program is. -/
inductive LineKind where
  /-- no command: empty, or a comment only -/
  | empty
  | command (l : AsmLine)
  | error
  deriving DecidableEq, Repr

/-- Reading one line (R62). -/
def parseLine (cs : List Char) : LineKind :=
  match lineText cs with
  | [] => .empty
  | t =>
    match mnemonicNames.lookup (t.takeWhile (· != ' ')) with
    | none => .error
    | some m =>
      match t.dropWhile (· != ' ') with
      | [] => .command ⟨m, none⟩
      | _ :: rest =>
        match operandOf rest with
        | some o => .command ⟨m, some o⟩
        | none => .error

/-- The numeric value of an operand; a symbol stands for its variant's number (R63). -/
def operandValue : Option AsmOperand → Nat
  | none => 0
  | some (.number n) => n
  | some (.symbol c) => c.number.toNat

/-- A line's command; none is an assembly error (R62). -/
def assemble (l : AsmLine) : Option Instr :=
  if l.wellFormed then some (l.mnemonic.build (BitVec.ofNat 32 (operandValue l.operand))) else none

/-- A line's command words: one for a command, none for an empty line; no list at all for an assembly error. -/
def assembleText (cs : List Char) : Option (List CmdWord) :=
  match parseLine cs with
  | .empty => some []
  | .command l => (assemble l).map (fun i => [encode i])
  | .error => none

end Sys2Proof.Machine
end

