-- ==== Sys2Proof/Safety.lean ====
section
/-!
DEFINITION. What counts as a safe state, in the terms the statements use: the invariant of PORE, and the two tables of the
spec that say which command may touch which state (10_state.md rule R26) and end in which status (60_exceptions.md rule
R137).
-/

namespace Sys2Proof.Machine

/-- R17: "It takes one of exactly two values". -/
def legalAddr (a : BusAddr) : Bool := a == 0x17#7 || a == 0x16#7

/-- R32: "PORE never issues a transaction to any other address". -/
def EnvEvent.addrLegal : EnvEvent → Bool
  | .busWrite a _ _ _ => legalAddr a
  | .busRead a _ => legalAddr a
  | .lineSet _ _ => true

/-- The operation was never answered (R146). -/
def EnvEvent.unanswered : EnvEvent → Bool
  | .busWrite _ _ _ a => a.isNone
  | .busRead _ a => a.isNone
  | .lineSet _ a => a.isNone

/-- What holds of every state PORE reaches: the parameters are what R7 and R91 allow, ADDR is one of the two addresses, FREQ is a supported frequency, every bus
transaction of the record went to one of the two addresses, and a command in progress is one whose operation, the newest
of the record, was never answered. -/
structure State.Safe (s : State) : Prop where
  params : s.params.wellFormed = true
  addr : legalAddr s.addr = true
  freqLow : 1039 ≤ s.freq.toNat
  freqHigh : s.freq.toNat ≤ 68030000
  bus : s.activity.all EnvEvent.addrLegal = true
  waiting : s.hung = true → s.activity.head?.any EnvEvent.unanswered = true

/-- Column REG of R26: the commands with a w there. -/
def writesReg : Mnemonic → Bool
  | .setoct | .setdac | .setcnf | .setconf | .setfreq | .refresh => true
  | .getoct | .getdac | .getcnf | .getfreq | .wrout | .oen | .odis | .free => false

/-- Column FREQ of R26. -/
def writesFreq : Mnemonic → Bool
  | .setfreq => true
  | .setoct | .setdac | .setcnf | .setconf | .refresh | .getoct | .getdac | .getcnf | .getfreq | .wrout | .oen
  | .odis | .free => false

/-- Column REL of R26. -/
def writesRel : Mnemonic → Bool
  | .free => true
  | .setoct | .setdac | .setcnf | .setconf | .refresh | .getoct | .getdac | .getcnf | .getfreq | .wrout | .oen
  | .odis | .setfreq => false

/-- Column DEVREG of R26, the w. -/
def writesDevreg : Mnemonic → Bool
  | .wrout => true
  | .setoct | .setdac | .setcnf | .setconf | .refresh | .getoct | .getdac | .getcnf | .getfreq | .free | .oen
  | .odis | .setfreq => false

/-- Column DEVREG of R26, the r. -/
def readsDevreg : Mnemonic → Bool
  | .refresh => true
  | .setoct | .setdac | .setcnf | .setconf | .wrout | .getoct | .getdac | .getcnf | .getfreq | .free | .oen
  | .odis | .setfreq => false

/-- Column LINE of R26. -/
def writesLine : Mnemonic → Bool
  | .oen | .odis => true
  | .setoct | .setdac | .setcnf | .setconf | .refresh | .getoct | .getdac | .getcnf | .getfreq | .free | .wrout
  | .setfreq => false

/-- Whether a command's own effect holds a bus transaction or a line operation: "WROUT one write, REFRESH one read, every
other command none" (R36), and OEN and ODIS one line operation (R118, R119). -/
def actsOutside : Mnemonic → Bool
  | .wrout | .refresh | .oen | .odis => true
  | .setoct | .setdac | .setcnf | .setconf | .getoct | .getdac | .getcnf | .getfreq | .free | .setfreq => false

/-- The table of R137, row by row: which command can end in which status. -/
def mayAnswer : Mnemonic → List Status
  | .setoct | .setdac | .setcnf | .setconf => [.ok, .released]
  | .getoct | .getdac | .getcnf | .getfreq => [.ok, .released]
  | .setfreq => [.ok, .tooLow, .tooHigh, .released]
  | .wrout | .refresh => [.ok, .busError, .released]
  | .oen | .odis => [.ok, .lineError, .released]
  | .free => [.ok, .released]

/-- How the checks (3) and (4) of R139 decide a command's status while REL = 0, given what the environment answers; none is a
command that is never answered (R146). -/
def ownStatus (i : Instr) (s : State) : Option Status :=
  match i with
  | .setfreq f =>
    if f.toNat < 1039 then some .tooLow else if 68030000 < f.toNat then some .tooHigh else some .ok
  | .wrout | .refresh =>
    match s.nextBusAnswer with
    | some (.ok _) => some .ok
    | some (.err _) => some .busError
    | none => none
  | .oen | .odis =>
    match s.nextLineAnswer with
    | some (.ok _) => some .ok
    | some (.err _) => some .lineError
    | none => none
  | .setoct _ | .getoct | .setdac _ | .getdac | .setcnf _ | .getcnf | .getfreq | .setconf _ | .free => some .ok

/-- The status of the newest response, or none. -/
def State.lastStatus (s : State) : Option Status := s.responses.head?.map Response.status

/-- A command word (R55, R56) that is reserved, in the spec's own terms: op is 0x0 or 0xF, or arg has a 1 outside the
operand slice of the command that op selects. -/
def reservedWord (w : CmdWord) : Bool :=
  w.extractLsb' 32 4 == 0x0#4 || w.extractLsb' 32 4 == 0xF#4 ||
    [Mnemonic.setoct, .getoct, .setdac, .getdac, .setcnf, .getcnf, .setfreq, .getfreq, .setconf, .wrout, .refresh,
      .oen, .odis, .free].any (fun m =>
        m.opcode == w.extractLsb' 32 4 && m.operandCount.getD 1 ≤ (w.extractLsb' 0 32).toNat)

/-- The input is not a reset. -/
def Input.notReset : Input → Bool
  | .command _ => true
  | .reset _ => false
  | .otherMaster _ => true

/-- The input is a command word other than WROUT's, so that it leaves DEVREG alone (R20(e)): no other master writes, no
reset, no second store. -/
def Input.leavesDevice : Input → Bool
  | .command w => decode w != .command .wrout
  | .reset _ => false
  | .otherMaster _ => false

end Sys2Proof.Machine
end

