-- ==== Sys2Proof/Certificates/Slice0/Obligations.lean ====
section
/-!
DEFINITION. The statements for the provers. A statement whose conclusion is an equation between a command's outcome and
`.next { s with … }` says the result, the completion and the frame at once: every field not named is as before.
-/

open Sys2Proof Sys2Proof.Machine

/-- R64, the whole table: each assembly line's word, and each word's command; the reserved rows are no commands. -/
def Obligations.WrittenOutWordsDecode : Prop :=
  (assembleText "SETOCT 6".toList = some [0x100000006#36] ∧ decode 0x100000006#36 = .command (.setoct 6#4)) ∧
  (assembleText "GETOCT".toList = some [0x200000000#36] ∧ decode 0x200000000#36 = .command .getoct) ∧
  (assembleText "SETDAC 788".toList = some [0x300000314#36] ∧ decode 0x300000314#36 = .command (.setdac 788#10)) ∧
  (assembleText "GETDAC".toList = some [0x400000000#36] ∧ decode 0x400000000#36 = .command .getdac) ∧
  (assembleText "SETCNF 1".toList = some [0x500000001#36] ∧ decode 0x500000001#36 = .command (.setcnf 1#2)) ∧
  (assembleText "GETCNF".toList = some [0x600000000#36] ∧ decode 0x600000000#36 = .command .getcnf) ∧
  (assembleText "SETFREQ 108000".toList = some [0x70001A5E0#36] ∧
    decode 0x70001A5E0#36 = .command (.setfreq 108000#32)) ∧
  (assembleText "GETFREQ".toList = some [0x800000000#36] ∧ decode 0x800000000#36 = .command .getfreq) ∧
  (assembleText "SETCONF BOTH".toList = some [0x900000001#36] ∧ decode 0x900000001#36 = .command (.setconf .both)) ∧
  (assembleText "WROUT".toList = some [0xA00000000#36] ∧ decode 0xA00000000#36 = .command .wrout) ∧
  (assembleText "REFRESH".toList = some [0xB00000000#36] ∧ decode 0xB00000000#36 = .command .refresh) ∧
  (assembleText "OEN".toList = some [0xC00000000#36] ∧ decode 0xC00000000#36 = .command .oen) ∧
  (assembleText "ODIS".toList = some [0xD00000000#36] ∧ decode 0xD00000000#36 = .command .odis) ∧
  (assembleText "FREE".toList = some [0xE00000000#36] ∧ decode 0xE00000000#36 = .command .free) ∧
  decode 0x000000000#36 = .reserved .opcode ∧ decode 0xF00000000#36 = .reserved .opcode ∧
  decode 0x100000010#36 = .reserved .argument ∧ decode 0x300000400#36 = .reserved .argument ∧
  decode 0xA00000001#36 = .reserved .argument

/-- Decoding a command's word gives the command back, for every command and every operand (R52, R53, R54, R65). -/
def Obligations.DecodeOfEncodeIsTheCommand : Prop :=
  ∀ i : Instr, decode (encode i) = .command i

/-- A word that decodes is the word of what it decodes to: no command has two words (R54, R56, R65). -/
def Obligations.EncodeOfDecodeIsTheWord : Prop :=
  ∀ (w : CmdWord) (i : Instr), decode w = .command i → encode i = w

/-- R54: a word is the command of a row, with the operand of R53, exactly when the row's mask and match say so; rows are
disjoint; a word of no row is reserved. -/
def Obligations.MaskAndMatchSelectTheCommand : Prop :=
  (∀ (w : CmdWord) (m : Mnemonic), w &&& m.mask = m.pattern ↔ decode w = .command (m.build (argField w))) ∧
  (∀ (w : CmdWord) (m n : Mnemonic), w &&& m.mask = m.pattern → w &&& n.mask = n.pattern → m = n) ∧
  (∀ w : CmdWord, (∀ m : Mnemonic, w &&& m.mask ≠ m.pattern) → ∃ r, decode w = .reserved r)

/-- R65, R55, R56: decoding is total and reserves exactly the words with op 0x0 or 0xF or a 1 outside the operand slice. -/
def Obligations.DecodeReservesExactlyTheReservedWords : Prop :=
  ∀ w : CmdWord, (reservedWord w = true ↔ ∃ r, decode w = .reserved r) ∧
    (reservedWord w = false ↔ ∃ i, decode w = .command i)

/-- R57, R59: the response word is {status, data}, with the seven status numbers. -/
def Obligations.ResponseWordIsStatusThenData : Prop :=
  (∀ r : Response, r.word.extractLsb' 32 4 = r.status.code ∧ r.word.extractLsb' 0 32 = r.data) ∧
  (∀ n : BitVec 4, (∃ st : Status, st.code = n) ↔ n.toNat ≤ 6) ∧
  (Status.ok.code = 0x0#4 ∧ Status.tooLow.code = 0x1#4 ∧ Status.tooHigh.code = 0x2#4 ∧
    Status.busError.code = 0x3#4 ∧ Status.lineError.code = 0x4#4 ∧ Status.illegal.code = 0x5#4 ∧
    Status.released.code = 0x6#4)

/-- R50, R51, R35: REG = {OCT, DAC, CNF} = OCT * 4096 + DAC * 4 + CNF; its two bytes; and the two bytes, most significant
first, are the register again. -/
def Obligations.RegisterLayoutAndByteOrder : Prop :=
  ∀ reg : Half,
    reg.toNat = (reg.extractLsb' 12 4).toNat * 4096 + (reg.extractLsb' 2 10).toNat * 4 + (reg.extractLsb' 0 2).toNat ∧
    getField .oct reg = (reg.extractLsb' 12 4).setWidth 16 ∧
    getField .dac reg = (reg.extractLsb' 2 10).setWidth 16 ∧
    getField .cnf reg = (reg.extractLsb' 0 2).setWidth 16 ∧
    firstByte reg = reg.extractLsb' 12 4 ++ (reg.extractLsb' 2 10).extractLsb' 6 4 ∧
    secondByte reg = (reg.extractLsb' 2 10).extractLsb' 0 6 ++ reg.extractLsb' 0 2 ∧
    ofBytes (firstByte reg) (secondByte reg) = reg ∧
    (∀ b0 b1 : Byte, firstByte (ofBytes b0 b1) = b0 ∧ secondByte (ofBytes b0 b1) = b1)

/-- A step runs the decoded command: when no command is in progress and the host's next word decodes to i, step is exec of
i in the state without that word (R14, R65). -/
def Obligations.StepRunsTheDecodedCommand : Prop :=
  ∀ (s : State) (w : CmdWord) (rest : List Input) (i : Instr),
    s.hung = false → s.inputs = .command w :: rest → decode w = .command i →
    step s = exec i { s with inputs := rest }

/-- R55, R56, R135: a reserved word is answered ILLEGAL (status 5) with data 0, whatever REL is, and changes nothing else
than that the word is taken from the port. -/
def Obligations.ReservedWordIsAnsweredIllegal : Prop :=
  Status.illegal.code = 0x5#4 ∧
  ∀ (s : State) (w : CmdWord) (rest : List Input),
    s.hung = false → s.inputs = .command w :: rest → reservedWord w = true →
    step s = .next { s with inputs := rest, responses := ⟨.illegal, 0#32⟩ :: s.responses }

/-- R136: with REL = 1 every legal command is answered RELEASED (status 6) with data 0 and changes nothing else. -/
def Obligations.ReleasedCommandHasNoEffect : Prop :=
  Status.released.code = 0x6#4 ∧
  ∀ (i : Instr) (s : State), s.rel = true →
    exec i s = .next { s with responses := ⟨.released, 0#32⟩ :: s.responses }

/-- R139: the order of the checks. A reserved word is ILLEGAL whatever REL is; else REL = 1 gives RELEASED; else the
command's own error, or OK, decides; for all parameters R7 and R91 allow. -/
def Obligations.ChecksAreMadeInTheFixedOrder : Prop :=
  ∀ (s : State) (w : CmdWord) (rest : List Input), s.params.wellFormed = true →
    s.hung = false → s.inputs = .command w :: rest →
    ∃ t, step s = .next t ∧
      (reservedWord w = true → t.lastStatus = some .illegal) ∧
      (∀ i, decode w = .command i → s.rel = true → t.lastStatus = some .released) ∧
      (∀ i, decode w = .command i → s.rel = false → ∀ st, ownStatus i s = some st → t.lastStatus = some st)

/-- R73, R75, R77: the three raw setters, with their encodings: the field is replaced, the other two fields and all other
state are as before, the response is (OK, 0); SETCNF v and SETCONF v have the same effect. -/
def Obligations.FieldSettersReplaceTheirFieldOnly : Prop :=
  (∀ v : BitVec 4, decode (0x1#4 ++ v.setWidth 32) = .command (.setoct v)) ∧
  (∀ v : BitVec 10, decode (0x3#4 ++ v.setWidth 32) = .command (.setdac v)) ∧
  (∀ v : BitVec 2, decode (0x5#4 ++ v.setWidth 32) = .command (.setcnf v)) ∧
  ∀ s : State, s.rel = false →
    (∀ v : BitVec 4, exec (.setoct v) s = .next { s with
      reg := v ++ s.reg.extractLsb' 0 12, responses := ⟨.ok, 0#32⟩ :: s.responses }) ∧
    (∀ v : BitVec 10, exec (.setdac v) s = .next { s with
      reg := s.reg.extractLsb' 12 4 ++ v ++ s.reg.extractLsb' 0 2, responses := ⟨.ok, 0#32⟩ :: s.responses }) ∧
    (∀ v : BitVec 2, exec (.setcnf v) s = .next { s with
      reg := s.reg.extractLsb' 2 14 ++ v, responses := ⟨.ok, 0#32⟩ :: s.responses }) ∧
    (∀ v : BitVec 2, exec (.setcnf v) s = exec (.setconf (OutputConf.ofNumber v)) s)

/-- R111, R61: SETCONF writes the variant's number into CNF and nothing else; the variants NEG, BOTH, POS, OFF are 0, 1, 2,
3, in a bijection, and GETCNF answers that number. -/
def Obligations.SetconfWritesTheVariantNumber : Prop :=
  (OutputConf.number .neg = 0#2 ∧ OutputConf.number .both = 1#2 ∧ OutputConf.number .pos = 2#2 ∧
    OutputConf.number .off = 3#2) ∧
  (∀ c : OutputConf, OutputConf.ofNumber c.number = c) ∧ (∀ v : BitVec 2, (OutputConf.ofNumber v).number = v) ∧
  (∀ c : OutputConf, decode (0x9#4 ++ c.number.setWidth 32) = .command (.setconf c)) ∧
  ∀ (s : State) (c : OutputConf), s.rel = false →
    exec (.setconf c) s = .next { s with
      reg := s.reg.extractLsb' 2 14 ++ c.number, responses := ⟨.ok, 0#32⟩ :: s.responses } ∧
    (s.reg.extractLsb' 0 2 = c.number →
      exec .getcnf s = .next { s with responses := ⟨.ok, c.number.setWidth 32⟩ :: s.responses })

/-- R74, R76, R78: the three raw getters, with their encodings: the data is the field, and nothing else changes; GETCNF's
data is the number of an output configuration. -/
def Obligations.FieldGettersAnswerTheirField : Prop :=
  (decode 0x200000000#36 = .command .getoct ∧ decode 0x400000000#36 = .command .getdac ∧
    decode 0x600000000#36 = .command .getcnf) ∧
  ∀ s : State, s.rel = false →
    exec .getoct s = .next { s with responses := ⟨.ok, (s.reg.extractLsb' 12 4).setWidth 32⟩ :: s.responses } ∧
    exec .getdac s = .next { s with responses := ⟨.ok, (s.reg.extractLsb' 2 10).setWidth 32⟩ :: s.responses } ∧
    exec .getcnf s = .next { s with responses := ⟨.ok, (s.reg.extractLsb' 0 2).setWidth 32⟩ :: s.responses } ∧
    (OutputConf.ofNumber (s.reg.extractLsb' 0 2)).number = s.reg.extractLsb' 0 2

/-- R100: GETFREQ answers the cached frequency, changes nothing else, and does not look at REG: whatever the register
holds, the data is the same. -/
def Obligations.GetfreqAnswersTheCachedFrequency : Prop :=
  decode 0x800000000#36 = .command .getfreq ∧
  ∀ (s : State) (r : Half), s.rel = false →
    exec .getfreq { s with reg := r } = .next { s with reg := r, responses := ⟨.ok, s.freq⟩ :: s.responses }

/-- R79 (a) to (e) and R70: read-back, field independence, order independence, idempotence, and that no field operation
fails; the masks are the shifted widths, disjoint, and together 0xFFFF. -/
def Obligations.FieldOperationsAreIndependent : Prop :=
  (Field.oct.shift = 12 ∧ Field.oct.width = 4 ∧ Field.oct.mask = 0xF000#16 ∧ Field.dac.shift = 2 ∧
    Field.dac.width = 10 ∧ Field.dac.mask = 0x0FFC#16 ∧ Field.cnf.shift = 0 ∧ Field.cnf.width = 2 ∧
    Field.cnf.mask = 0x0003#16) ∧
  (∀ F : Field, F.mask = BitVec.ofNat 16 ((2 ^ F.width - 1) <<< F.shift)) ∧
  (∀ F G : Field, F ≠ G → F.mask &&& G.mask = 0#16) ∧
  Field.oct.mask ||| Field.dac.mask ||| Field.cnf.mask = 0xFFFF#16 ∧
  (∀ (F : Field) (v reg : Half), v.toNat < 2 ^ F.width →
    getField F (setField F v reg) = v ∧
    (∀ G : Field, G ≠ F → getField G (setField F v reg) = getField G reg) ∧
    setField F v (setField F v reg) = setField F v reg) ∧
  (∀ (F G : Field) (v w reg : Half), F ≠ G → v.toNat < 2 ^ F.width → w.toNat < 2 ^ G.width →
    setField F v (setField G w reg) = setField G w (setField F v reg)) ∧
  (∀ (s : State) (v4 : BitVec 4) (v10 : BitVec 10) (v2 : BitVec 2) (c : OutputConf) (i : Instr), s.rel = false →
    i ∈ [Instr.setoct v4, .getoct, .setdac v10, .getdac, .setcnf v2, .getcnf, .setconf c] →
    ∃ t, exec i s = .next t ∧ t.lastStatus = some .ok)

/-- R93, for every band table that meets R91(a) to (e): below 1039 TooLow, above 68 030 000 TooHigh, and between them the
first band that contains f. -/
def Obligations.LookupFindsTheFirstBandOfEveryTable : Prop :=
  ∀ (table : List Band) (f : Nat), bandsWellFormed table = true →
    (f < 1039 → octaveLookup table f = .tooLow) ∧
    (68030000 < f → octaveLookup table f = .tooHigh) ∧
    (1039 ≤ f → f ≤ 68030000 → ∃ i b, octaveLookup table f = .band i ∧ table[i]? = some b ∧
      b.lo ≤ f ∧ f ≤ b.hi ∧ ∀ j c, j < i → table[j]? = some c → ¬ (c.lo ≤ f ∧ f ≤ c.hi))

/-- R92: the default table is the one the rule writes down, meets R91(a) to (f), gives dac = 0 at each band's lower end, and
its lookup is floor(log2(f / 1039)). -/
def Obligations.DefaultTableLookupIsTheLogarithm : Prop :=
  (∀ i, i < 15 → Config.bands[i]? = some ⟨1039 * 2 ^ i, 1039 * 2 ^ (i + 1) - 1⟩) ∧
  Config.bands[15]? = some ⟨1039 * 2 ^ 15, 68030000⟩ ∧ Config.bands.length = 16 ∧
  bandsWellFormed Config.bands = true ∧ bandsPartition Config.bands = true ∧
  (∀ i, i < 16 → dacCompute (1039 * 2 ^ i) i = 0#10) ∧
  (∀ f, 1039 ≤ f → f ≤ 68030000 → octaveLookup Config.bands f = .band (Nat.log2 (f / 1039)))

/-- R99, R131, R132, with R93 and R95 written out: SETFREQ on every operand, for every band table R91 allows. Below 1039
TOO_LOW (status 1) and above 68 030 000 TOO_HIGH (status 2), data 0, nothing else changed; with i the first band that
contains f, OCT is i, DAC the low 10 bits of 2048 - (2078 * 2^(10+i)) div f, CNF as before, FREQ is f, and the data is
the new register. -/
def Obligations.SetfreqEncodesTheFrequency : Prop :=
  (∀ f : Word, decode (0x7#4 ++ f) = .command (.setfreq f)) ∧
  Status.tooLow.code = 0x1#4 ∧ Status.tooHigh.code = 0x2#4 ∧
  ∀ (s : State) (f : Word), s.params.wellFormed = true → s.rel = false →
    (f.toNat < 1039 → exec (.setfreq f) s = .next { s with responses := ⟨.tooLow, 0#32⟩ :: s.responses }) ∧
    (68030000 < f.toNat → exec (.setfreq f) s = .next { s with responses := ⟨.tooHigh, 0#32⟩ :: s.responses }) ∧
    (∀ (i : Nat) (b : Band), s.params.bands[i]? = some b → b.lo ≤ f.toNat → f.toNat ≤ b.hi →
      (∀ j c, j < i → s.params.bands[j]? = some c → ¬ (c.lo ≤ f.toNat ∧ f.toNat ≤ c.hi)) →
      ∃ r : Half,
        r = BitVec.ofNat 4 i ++
          BitVec.ofInt 10 (2048 - (((2078 * 2 ^ (10 + i)) / f.toNat : Nat) : Int)) ++ s.reg.extractLsb' 0 2 ∧
        exec (.setfreq f) s = .next { s with
          reg := r, freq := f, responses := ⟨.ok, r.setWidth 32⟩ :: s.responses })

/-- R102, for every band table R91 allows: for every f in [1039, 68 030 000] SETFREQ succeeds, and GETOCT and GETDAC then answer the two integers that were
packed (DAC narrowed to 10 bits), FREQ is f and CNF is as before; for every other f the register and the frequency are
unchanged. -/
def Obligations.SetfreqReadsBackAndFailsCleanly : Prop :=
  ∀ (s : State) (f : Word), s.params.wellFormed = true → s.rel = false →
    ∃ t, exec (.setfreq f) s = .next t ∧ t.reg.extractLsb' 0 2 = s.reg.extractLsb' 0 2 ∧
      (1039 ≤ f.toNat → f.toNat ≤ 68030000 →
        t.lastStatus = some .ok ∧ t.freq = f ∧
        ∃ i u v, octaveLookup s.params.bands f.toNat = .band i ∧ i < 16 ∧
          exec .getoct t = .next u ∧ u.responses.head? = some ⟨.ok, BitVec.ofNat 32 i⟩ ∧
          exec .getdac t = .next v ∧
          v.responses.head? = some ⟨.ok, BitVec.ofInt 32 (dacExact f.toNat i % 1024)⟩) ∧
      (f.toNat < 1039 → t.lastStatus = some .tooLow ∧ t.reg = s.reg ∧ t.freq = s.freq) ∧
      (68030000 < f.toNat → t.lastStatus = some .tooHigh ∧ t.reg = s.reg ∧ t.freq = s.freq)

/-- R97 with the default table: for f in band i, d lies in 0 to 1024; it is 0 exactly at the band's lower end and 1024
exactly above T_i, where the DAC value wraps to 0; up to T_i the DAC value is d itself. -/
def Obligations.DacWrapsExactlyAtTheTopOfEachBand : Prop :=
  ∀ (i : Nat) (b : Band) (f : Nat), Config.bands[i]? = some b → b.lo ≤ f → f ≤ b.hi →
    0 ≤ dacExact f i ∧ dacExact f i ≤ 1024 ∧
    (dacExact f i = 0 ↔ f = b.lo) ∧
    (dacExact f i = 1024 ↔ (2078 <<< (10 + i)) / 1025 < f) ∧
    ((2078 <<< (10 + i)) / 1025 < f → dacCompute f i = 0#10) ∧
    (f ≤ (2078 <<< (10 + i)) / 1025 → ((dacCompute f i).toNat : Int) = dacExact f i)

/-- R95, R96: d is the chip formula's real solution rounded up, so that the frequency of (oct, d) is at or above f and that
of (oct, d - 1) is below it, in integers. -/
def Obligations.ExactDacIsTheLeastAtOrAboveTheRequest : Prop :=
  ∀ f oct : Nat, 0 < f →
    (f : Int) * (2048 - dacExact f oct) ≤ 2078 * 2 ^ (10 + oct) ∧
    2078 * 2 ^ (10 + oct) < (f : Int) * (2048 - (dacExact f oct - 1))

/-- R112, R113: WROUT performs one write of REG to ADDR, most significant byte first. Answered Ok, DEVREG is REG and the
response is (OK, 0); answered Err(e), the response is (BUS_ERROR, e) and DEVREG is any value; either way PORE's own state
is unchanged. (The answer is used up and the model's draw counter moves on: log entries 7, 8.) -/
def Obligations.WroutStoresTheRegister : Prop :=
  decode 0xA00000000#36 = .command .wrout ∧ Status.busError.code = 0x3#4 ∧
  ∀ s : State, s.rel = false →
    (s.nextBusAnswer = some (.ok ()) → exec .wrout s = .next { s with
      devreg := s.reg
      activity := .busWrite s.addr (s.reg.extractLsb' 8 8) (s.reg.extractLsb' 0 8) (some (.ok ())) :: s.activity
      responses := ⟨.ok, 0#32⟩ :: s.responses
      busAnswers := s.busAnswers.tail
      draws := s.draws + 1 }) ∧
    (∀ e : BusErr, s.nextBusAnswer = some (.err e) → ∃ d : Half, exec .wrout s = .next { s with
      devreg := d
      activity := .busWrite s.addr (s.reg.extractLsb' 8 8) (s.reg.extractLsb' 0 8) (some (.err e)) :: s.activity
      responses := ⟨.busError, e⟩ :: s.responses
      busAnswers := s.busAnswers.tail
      draws := s.draws + 1 })

/-- R114, R115, R116: REFRESH performs one read from ADDR. Answered Ok, REG is the target's register, the byte received
first in bits 15 to 8, and the response is (OK, 0); answered Err(e), REG is unchanged and the response is (BUS_ERROR, e);
FREQ, ADDR, REL and DEVREG are unchanged. -/
def Obligations.RefreshLoadsTheRegister : Prop :=
  decode 0xB00000000#36 = .command .refresh ∧ Status.busError.code = 0x3#4 ∧
  ∀ s : State, s.rel = false →
    (s.nextBusAnswer = some (.ok ()) → exec .refresh s = .next { s with
      reg := s.devreg
      activity := .busRead s.addr (some (.ok (s.devreg.extractLsb' 8 8, s.devreg.extractLsb' 0 8))) :: s.activity
      responses := ⟨.ok, 0#32⟩ :: s.responses
      busAnswers := s.busAnswers.tail
      draws := s.draws + 1 }) ∧
    (∀ e : BusErr, s.nextBusAnswer = some (.err e) → exec .refresh s = .next { s with
      activity := .busRead s.addr (some (.err e)) :: s.activity
      responses := ⟨.busError, e⟩ :: s.responses
      busAnswers := s.busAnswers.tail
      draws := s.draws + 1 })

/-- R118, R119, R134: OEN and ODIS perform one line operation, High or Low. Answered Ok, LINE is that level and the response
is (OK, 0); answered Err(e), the response is (LINE_ERROR, e) and LINE is either level; nothing else changes. -/
def Obligations.OenAndOdisDriveTheLine : Prop :=
  decode 0xC00000000#36 = .command .oen ∧ decode 0xD00000000#36 = .command .odis ∧ Status.lineError.code = 0x4#4 ∧
  ∀ (s : State) (i : Instr) (level : Level), s.rel = false → (i, level) ∈ [(Instr.oen, Level.high), (.odis, .low)] →
    (s.nextLineAnswer = some (.ok ()) → exec i s = .next { s with
      line := level
      activity := .lineSet level (some (.ok ())) :: s.activity
      responses := ⟨.ok, 0#32⟩ :: s.responses
      lineAnswers := s.lineAnswers.tail
      draws := s.draws + 1 }) ∧
    (∀ e : LineErr, s.nextLineAnswer = some (.err e) → ∃ l : Level, exec i s = .next { s with
      line := l
      activity := .lineSet level (some (.err e)) :: s.activity
      responses := ⟨.lineError, e⟩ :: s.responses
      lineAnswers := s.lineAnswers.tail
      draws := s.draws + 1 })

/-- R121: FREE sets REL, so that bus_own goes to 0, answers (OK, 0) and changes nothing else: no transaction, no line
operation, REG, FREQ and ADDR keep their values; and they can no longer be read: every later command is RELEASED. -/
def Obligations.FreeReleasesTheBus : Prop :=
  decode 0xE00000000#36 = .command .free ∧
  ∀ s : State, s.rel = false →
    ∃ t, exec .free s = .next t ∧ t = { s with rel := true, responses := ⟨.ok, 0#32⟩ :: s.responses } ∧
      t.busOwn = false ∧ ∀ i, exec i t = .next { t with responses := ⟨.released, 0#32⟩ :: t.responses }

/-- R24, R156: the host's reset between commands gives PORE its reset values, with ADDR from the strap, keeps DEVREG and
performs no bus transaction and no line operation; LINE is then some level (R21); the reset values of REG and FREQ agree.
(The model's draw counter moves on: log entry 8.) -/
def Obligations.HostResetGivesTheResetValues : Prop :=
  (octaveLookup Config.bands 1039 = .band 0 ∧ dacCompute 1039 0 = 0#10) ∧
  ∀ (s : State) (adrSel : Bool) (rest : List Input), s.hung = false → s.inputs = .reset adrSel :: rest →
    ∃ (t : State) (l : Level), step s = .next t ∧ t.busOwn = true ∧
      t = { s with
        reg := 0x0000#16, freq := 1039#32, addr := if adrSel then 0x16#7 else 0x17#7, rel := false
        inputs := rest, line := l, draws := s.draws + 1 }

/-- R146, R159: a reset ends a command that is never answered; PORE's state and LINE are then as after
any reset. DEVREG is then free: the model's choice among those R159 allows (log entry 11). -/
def Obligations.HostResetEndsAHungCommand : Prop :=
  ∀ (s : State) (adrSel : Bool) (rest : List Input), s.hung = true → s.inputs = .reset adrSel :: rest →
    ∃ (d : Half) (l : Level), step s = .next { s with
      reg := 0x0000#16, freq := 1039#32, addr := if adrSel then 0x16#7 else 0x17#7, rel := false, hung := false
      inputs := rest, devreg := d, line := l, draws := s.draws + 1 }

/-- R173: a command word presented while a command is in progress is not accepted. That the model's step stops by name
there is the model's choice (log entry 12). -/
def Obligations.NoCommandIsAcceptedDuringACommand : Prop :=
  ∀ (s : State) (w : CmdWord) (rest : List Input), s.hung = true → s.inputs = .command w :: rest →
    step s = .fault .commandInProgress

/-- R20(d): between commands another bus master may set DEVREG to any value; nothing else changes. That its write also
lands while a command hangs is the model's choice (log entry 13), and so is that a step with nothing presented changes
nothing (log entry 2). -/
def Obligations.OtherMasterWritesTheDeviceOnly : Prop :=
  (∀ (s : State) (v : Half) (rest : List Input), s.inputs = .otherMaster v :: rest →
    step s = .next { s with devreg := v, inputs := rest }) ∧
  (∀ s : State, s.inputs = [] → step s = .next s)

/-- R146, R27: a command whose one operation is never answered gives no response and stays in progress; PORE's registers
are unchanged, and so is the part of the environment it did not act on. (That the hang is a state of its own is the model's
choice, log entry 11.) -/
def Obligations.UnansweredOperationHangsTheCommand : Prop :=
  ∀ (i : Instr) (s : State), s.rel = false → ownStatus i s = none →
    ∃ t, exec i s = .next t ∧ t.hung = true ∧ t.responses = s.responses ∧ t.inputs = s.inputs ∧
      t.reg = s.reg ∧ t.freq = s.freq ∧ t.addr = s.addr ∧ t.rel = s.rel ∧
      (∃ e, t.activity = e :: s.activity ∧ e.unanswered = true) ∧
      (writesDevreg i.mnemonic = false → t.devreg = s.devreg) ∧ (writesLine i.mnemonic = false → t.line = s.line)

/-- R146: "PORE accepts no further command, and only reset ends the condition": along every run without a reset a hung PORE
stays hung, gives no response and keeps its registers. -/
def Obligations.OnlyResetEndsAHang : Prop :=
  ∀ (k : Nat) (s t : State), s.hung = true → s.inputs.all Input.notReset = true →
    core.run k s = .next t →
    t.hung = true ∧ t.responses = s.responses ∧ t.activity = s.activity ∧ t.reg = s.reg ∧ t.freq = s.freq ∧
      t.addr = s.addr ∧ t.rel = s.rel

/-- The state after reset (R24) is safe, for all parameters R7 and R91 allow, either strap, and whatever DEVREG and LINE
hold; so is the model's choice among them, State.reset (log entries 4, 5, 6, 9, 10). -/
def Obligations.ResetStateIsSafe : Prop :=
  (∀ (p : Params) (adrSel : Bool) (d : Half) (l : Level), p.wellFormed = true → (State.resetWith p adrSel d l).Safe) ∧
  State.reset.Safe

/-- R25, R91 ("a constant table"): the parameters are no state: no step changes them, and after a reset they are what the
block was given. That State holds them is the model's choice (log entry 10). -/
def Obligations.ParametersNeverChange : Prop :=
  (∀ s t : State, step s = .next t → t.params = s.params) ∧
  (∀ (p : Params) (adrSel : Bool) (d : Half) (l : Level), (State.resetWith p adrSel d l).params = p)

/-- R7, R133, R134: the data of a BUS_ERROR is a value of BUSERR_W bits and that of a LINE_ERROR one of LINEERR_W bits,
zero-extended, whatever the environment answers; and both occur, with every such value. -/
def Obligations.ErrorDataFitsTheErrorWidth : Prop :=
  (∀ (i : Instr) (s : State), ∃ t, exec i s = .next t ∧ ∀ r, t.responses = r :: s.responses →
    (r.status = .busError → r.data.toNat < 2 ^ s.params.busErrWidth) ∧
    (r.status = .lineError → r.data.toNat < 2 ^ s.params.lineErrWidth)) ∧
  (∀ (s : State) (e : Word) (rest : List (Option BusAnswer)), s.rel = false →
    s.busAnswers = some (.err e) :: rest → e.toNat < 2 ^ s.params.busErrWidth →
    ∀ i ∈ [Instr.wrout, .refresh], ∃ t, exec i s = .next t ∧ t.responses = ⟨.busError, e⟩ :: s.responses) ∧
  (∀ (s : State) (e : Word) (rest : List (Option LineAnswer)), s.rel = false →
    s.lineAnswers = some (.err e) :: rest → e.toNat < 2 ^ s.params.lineErrWidth →
    ∀ i ∈ [Instr.oen, .odis], ∃ t, exec i s = .next t ∧ t.responses = ⟨.lineError, e⟩ :: s.responses)

/-- Every step keeps the invariant: the parameters are what R7 and R91 allow, ADDR is one of the two addresses (R17), FREQ is a supported frequency (R12, R131,
R132), every bus transaction went to one of the two addresses (R32), and a command in progress is one whose operation was
not answered (R146). -/
def Obligations.StepKeepsSafe : Prop :=
  ∀ s t : State, s.Safe → step s = .next t → t.Safe

/-- R26, the columns of writes: every command completes, and writes no state outside its row, whatever the environment
answers; no command writes ADDR, and none takes a further word from the port. -/
def Obligations.CommandsWriteWithinTheirRow : Prop :=
  ∀ (i : Instr) (s : State), ∃ t, exec i s = .next t ∧ t.addr = s.addr ∧ t.inputs = s.inputs ∧
    (writesReg i.mnemonic = false → t.reg = s.reg) ∧
    (writesFreq i.mnemonic = false → t.freq = s.freq) ∧
    (writesRel i.mnemonic = false → t.rel = s.rel) ∧
    (writesDevreg i.mnemonic = false → t.devreg = s.devreg) ∧
    (writesLine i.mnemonic = false → t.line = s.line)

/-- R26, R21, R120: no command reads LINE, and only REFRESH reads DEVREG: two runs of a command from states that differ
there only end in states that differ there only. -/
def Obligations.EnvironmentIsReadByRefreshOnly : Prop :=
  ∀ (i : Instr) (s : State),
    (∀ l : Level, ∃ t u, exec i s = .next t ∧ exec i { s with line := l } = .next u ∧
      { t with line := .low } = { u with line := .low }) ∧
    (∀ d : Half, readsDevreg i.mnemonic = false → ∃ t u, exec i s = .next t ∧
      exec i { s with devreg := d } = .next u ∧ { t with devreg := 0#16 } = { u with devreg := 0#16 })

/-- R137: a legal command that responds ends in a status of its row; every status of every row occurs; a reserved word ends
in ILLEGAL only. -/
def Obligations.CommandsAnswerWithinTheirRow : Prop :=
  (∀ (i : Instr) (s : State), ∃ t, exec i s = .next t ∧
    ((∃ r, t.responses = r :: s.responses ∧ r.status ∈ mayAnswer i.mnemonic ∧ t.hung = s.hung) ∨
      (t.responses = s.responses ∧ t.hung = true ∧ actsOutside i.mnemonic = true))) ∧
  (∀ (m : Mnemonic) (st : Status), st ∈ mayAnswer m →
    ∃ (i : Instr) (s t : State), i.mnemonic = m ∧ exec i s = .next t ∧ t.lastStatus = some st) ∧
  (∀ (s t : State) (w : CmdWord) (rest : List Input), s.hung = false → s.inputs = .command w :: rest →
    reservedWord w = true → step s = .next t → t.lastStatus = some .illegal)

/-- R36: WROUT performs one write and REFRESH one read, to ADDR, of two bytes; OEN and ODIS one line operation; every other
command none; and a released PORE none at all. -/
def Obligations.EachCommandPerformsAtMostOneOperation : Prop :=
  ∀ (i : Instr) (s : State), ∃ t, exec i s = .next t ∧
    (s.rel = true → t.activity = s.activity) ∧
    (actsOutside i.mnemonic = false → t.activity = s.activity) ∧
    (s.rel = false → i = .wrout →
      ∃ a, t.activity = .busWrite s.addr (s.reg.extractLsb' 8 8) (s.reg.extractLsb' 0 8) a :: s.activity) ∧
    (s.rel = false → i = .refresh → ∃ a, t.activity = .busRead s.addr a :: s.activity) ∧
    (s.rel = false → i = .oen → ∃ a, t.activity = .lineSet .high a :: s.activity) ∧
    (s.rel = false → i = .odis → ∃ a, t.activity = .lineSet .low a :: s.activity)

/-- R12, R22(b): a step changes FREQ only by a reset or by a SETFREQ that succeeds, and then to its operand; for all
parameters R7 and R91 allow. -/
def Obligations.FreqChangesBySetfreqOrResetOnly : Prop :=
  ∀ s t : State, s.params.wellFormed = true → step s = .next t →
    t.freq = s.freq ∨
    (∃ adrSel rest, s.inputs = .reset adrSel :: rest ∧ t.freq = 1039#32) ∨
    (∃ w rest f, s.inputs = .command w :: rest ∧ decode w = .command (.setfreq f) ∧ s.rel = false ∧
      1039 ≤ f.toNat ∧ f.toNat ≤ 68030000 ∧ t.freq = f ∧ t.lastStatus = some .ok)

/-- R18, R122: "Only reset clears REL". Along every run without a reset, once released PORE stays released, keeps REG, FREQ
and ADDR, performs no operation and leaves the line alone. -/
def Obligations.OnlyResetEndsARelease : Prop :=
  ∀ (k : Nat) (s t : State), s.rel = true → s.inputs.all Input.notReset = true → core.run k s = .next t →
    t.rel = true ∧ t.reg = s.reg ∧ t.freq = s.freq ∧ t.addr = s.addr ∧ t.activity = s.activity ∧ t.line = s.line

/-- R20(e), R41(a): after a WROUT answered Ok at s, and any further moves none of which is another master's write, a reset
or a WROUT, a REFRESH answered Ok gives the value WROUT wrote. -/
def Obligations.RefreshAfterWroutReturnsTheValueWritten : Prop :=
  ∀ (k : Nat) (s t u : State), s.rel = false → s.nextBusAnswer = some (.ok ()) →
    exec .wrout s = .next t → t.inputs.all Input.leavesDevice = true → core.run k t = .next u →
    u.rel = false → u.nextBusAnswer = some (.ok ()) →
    ∃ v, exec .refresh u = .next v ∧ v.reg = s.reg

/-- R62, R63: a line is an assembly error exactly when it is ill formed; otherwise its command has the line's mnemonic and
the line's operand, and its word decodes to it. -/
def Obligations.AssemblerTakesExactlyTheWellFormedLines : Prop :=
  ∀ l : AsmLine,
    (l.wellFormed = false → assemble l = none) ∧
    (l.wellFormed = true → ∃ i, assemble l = some i ∧ i.mnemonic = l.mnemonic ∧
      i.arg.toNat = operandValue l.operand ∧ decode (encode i) = .command i)

/-- R63: each symbol of SETCONF is its number, and a symbol with any other command is an error. -/
def Obligations.SetconfSymbolsAreTheirNumbers : Prop :=
  (∀ p ∈ [("SETCONF NEG", "SETCONF 0", 0x900000000#36), ("SETCONF BOTH", "SETCONF 1", 0x900000001#36),
      ("SETCONF POS", "SETCONF 2", 0x900000002#36), ("SETCONF OFF", "SETCONF 3", 0x900000003#36)],
    assembleText p.1.toList = some [p.2.2] ∧ assembleText p.2.1.toList = some [p.2.2]) ∧
  (∀ (m : Mnemonic) (c : OutputConf), m ≠ .setconf → assemble ⟨m, some (.symbol c)⟩ = none)

/-- The model's own interface (log entries 1, 17): a command's word, numbered as the opcode table numbers it, is read as that
command, and the word placed at the command port is the command the next step runs. -/
def Obligations.PresentedWordIsTheCommandRun : Prop :=
  ∀ (i : Instr) (s : State) (nbits : Nat), 36 ≤ nbits →
    decodeTableWord nbits (encode i).toNat = some i ∧
    step (s.withFetchWord nbits (encode i).toNat) = exec i { s with hung := false }
end

