-- ==== Sys2Proof/Laws/Encoder.lean ====
section
/-!
SUPPORT. What octave lookup can answer, over any table; and the DAC quotient as integer division.
-/

namespace Sys2Proof.Machine

/-- Lookup answers the first band that contains f, or, when none does, one of the two errors. -/
theorem octaveLookup_cases (table : List Band) (f : Nat) :
    (∃ i b, octaveLookup table f = .band i ∧ table[i]? = some b ∧ b.lo ≤ f ∧ f ≤ b.hi ∧
      ∀ j c, j < i → table[j]? = some c → ¬ (c.lo ≤ f ∧ f ≤ c.hi)) ∨
    ((∀ b ∈ table, ¬ (b.lo ≤ f ∧ f ≤ b.hi)) ∧
      octaveLookup table f = if table.head?.any (fun b => f < b.lo) then .tooLow else .tooHigh) := by
  unfold octaveLookup
  cases h : table.findIdx? (inBand f) with
  | none =>
    refine .inr ⟨fun b hb hc => ?_, rfl⟩
    have := List.findIdx?_eq_none_iff.1 h b hb
    simp [inBand, hc.1, hc.2] at this
  | some i =>
    obtain ⟨hi, hp, hfirst⟩ := List.findIdx?_eq_some_iff_getElem.1 h
    have hp' : table[i].lo ≤ f ∧ f ≤ table[i].hi := by simpa [inBand] using hp
    refine .inl ⟨i, table[i], rfl, by simp [hi], hp'.1, hp'.2, fun j c hj hc hin => ?_⟩
    obtain ⟨hlt, rfl⟩ := List.getElem?_eq_some_iff.1 hc
    exact hfirst j hj (by simpa [inBand] using hin)

/-- The first band of a table that contains f is the one lookup answers. -/
theorem octaveLookup_of_first (table : List Band) (f i : Nat) (b : Band) (hi : table[i]? = some b)
    (hb : b.lo ≤ f ∧ f ≤ b.hi) (hfirst : ∀ j c, j < i → table[j]? = some c → ¬ (c.lo ≤ f ∧ f ≤ c.hi)) :
    octaveLookup table f = .band i := by
  rcases octaveLookup_cases table f with ⟨j, c, hj, hc, h1, h2, hj'⟩ | ⟨h, -⟩
  · rcases Nat.lt_trichotomy i j with h | rfl | h
    · exact absurd hb (hj' i b h hi)
    · exact hj
    · exact absurd ⟨h1, h2⟩ (hfirst j c h hc)
  · exact absurd hb (h b (List.mem_of_getElem? hi))

/-- Two bands of the default table that contain the same frequency are the same band. -/
theorem bands_disjoint (f i j : Nat) (b c : Band) (hi : Config.bands[i]? = some b) (hj : Config.bands[j]? = some c)
    (hb : b.lo ≤ f ∧ f ≤ b.hi) (hc : c.lo ≤ f ∧ f ≤ c.hi) : i = j := by
  have hdec : ∀ i j : Fin 16, i < j → ∀ b c, Config.bands[i.1]? = some b → Config.bands[j.1]? = some c → b.hi < c.lo := by
    have : ∀ i j : Fin 16, i < j → (Config.bands[i.1]'i.2).hi < (Config.bands[j.1]'j.2).lo := by decide
    intro i j hij b c hb hc
    obtain ⟨h1, rfl⟩ := List.getElem?_eq_some_iff.1 hb
    obtain ⟨h2, rfl⟩ := List.getElem?_eq_some_iff.1 hc
    exact this i j hij
  have hi16 : i < 16 := (List.getElem?_eq_some_iff.1 hi).1
  have hj16 : j < 16 := (List.getElem?_eq_some_iff.1 hj).1
  rcases Nat.lt_trichotomy i j with h | h | h
  · have := hdec ⟨i, hi16⟩ ⟨j, hj16⟩ h b c hi hj
    omega
  · exact h
  · have := hdec ⟨j, hj16⟩ ⟨i, hi16⟩ h c b hj hi
    omega

/-- In the default table, the band that contains f is the one lookup answers. -/
theorem octaveLookup_of_band (f i : Nat) (b : Band) (hi : Config.bands[i]? = some b) (hb : b.lo ≤ f ∧ f ≤ b.hi) :
    octaveLookup Config.bands f = .band i := by
  rcases octaveLookup_cases Config.bands f with ⟨j, c, hj, hc, h1, h2, -⟩ | ⟨h, -⟩
  · rw [hj, bands_disjoint f i j b c hi hc hb ⟨h1, h2⟩]
  · exact absurd hb (h b (List.mem_of_getElem? hi))

/-- The quotient of R95, without the shift. -/
theorem dacQuotient_eq (f oct : Nat) : dacQuotient f oct = 2078 * 2 ^ (10 + oct) / f := by
  simp [dacQuotient, Config.kDac, Nat.shiftLeft_eq]

/-- Integer division, as two inequalities. -/
theorem dacQuotient_spec (f oct : Nat) (hf : 0 < f) :
    f * dacQuotient f oct ≤ 2078 * 2 ^ (10 + oct) ∧ 2078 * 2 ^ (10 + oct) < f * (dacQuotient f oct + 1) := by
  rw [dacQuotient_eq]
  exact ⟨Nat.mul_div_le _ _, Nat.lt_mul_div_succ _ hf⟩

end Sys2Proof.Machine
end

