-- ==== Sys2Proof/Laws/Fields.lean ====
section
/-!
SUPPORT. The two field operations bit by bit, for values that fit the field: the one unfolding of their masks and shifts.
-/

namespace Sys2Proof.Machine

/-- A mask has exactly the bits of its field (R70). -/
theorem mask_getLsbD (F : Field) (i : Nat) :
    F.mask.getLsbD i = (decide (F.shift ≤ i) && decide (i < F.shift + F.width)) := by
  by_cases h : i < 16
  · have : ∀ F : Field, ∀ i : Fin 16,
        F.mask.getLsbD i = (decide (F.shift ≤ i.1) && decide (i.1 < F.shift + F.width)) := by
      intro F; cases F <;> decide
    exact this F ⟨i, h⟩
  · have : F.shift + F.width ≤ 16 := by cases F <;> decide
    rw [BitVec.getLsbD_of_ge _ _ (by omega)]
    symm
    simp only [Bool.and_eq_false_iff, decide_eq_false_iff_not]
    omega

/-- set_field bit by bit: the value's bits in the field, the register's bits elsewhere. -/
theorem setField_getLsbD (F : Field) (v reg : Half) (hv : v.toNat < 2 ^ F.width) (i : Nat) :
    (setField F v reg).getLsbD i =
      if F.shift ≤ i ∧ i < F.shift + F.width then v.getLsbD (i - F.shift) else reg.getLsbD i := by
  have hw : F.shift + F.width ≤ 16 := by cases F <;> decide
  by_cases hi : i < 16
  · have hbit : F.width ≤ i - F.shift → v.getLsbD (i - F.shift) = false := fun h =>
      Nat.testBit_lt_two_pow (lt_of_lt_of_le hv (Nat.pow_le_pow_right (by omega) h))
    have hm := mask_getLsbD F i
    simp only [setField, BitVec.getLsbD_or, BitVec.getLsbD_and, BitVec.getLsbD_not, BitVec.getLsbD_shiftLeft, hm, hi]
    by_cases h1 : F.shift ≤ i <;> by_cases h2 : i < F.shift + F.width
    · simp [h1, h2, Nat.not_lt.mpr h1]
    · simp [h1, h2, hbit (by omega)]
    · simp [h1, h2, Nat.lt_of_not_le h1]
    · omega
  · rw [BitVec.getLsbD_of_ge _ _ (by omega), BitVec.getLsbD_of_ge reg _ (by omega)]
    split
    · omega
    · rfl

/-- get_field bit by bit. -/
theorem getField_getLsbD (F : Field) (reg : Half) (i : Nat) :
    (getField F reg).getLsbD i = (decide (i < F.width) && reg.getLsbD (F.shift + i)) := by
  by_cases h : i < F.width <;> simp [getField, mask_getLsbD, h, Bool.and_comm]

/-- get_field(OCT) bit by bit, at its numerals. -/
theorem getField_oct_getLsbD (reg : Half) (i : Nat) :
    (getField .oct reg).getLsbD i = (decide (i < 4) && reg.getLsbD (12 + i)) :=
  getField_getLsbD .oct reg i

/-- get_field(DAC) bit by bit, at its numerals. -/
theorem getField_dac_getLsbD (reg : Half) (i : Nat) :
    (getField .dac reg).getLsbD i = (decide (i < 10) && reg.getLsbD (2 + i)) :=
  getField_getLsbD .dac reg i

/-- get_field(CNF) bit by bit, at its numerals. -/
theorem getField_cnf_getLsbD (reg : Half) (i : Nat) :
    (getField .cnf reg).getLsbD i = (decide (i < 2) && reg.getLsbD (0 + i)) :=
  getField_getLsbD .cnf reg i

end Sys2Proof.Machine
end

