-- ==== Sys2Proof/Laws/State.lean ====
section
/-!
SUPPORT. One lemma per field per update of State, each by definition, so that no proof unfolds a record update.
-/

namespace Sys2Proof.Machine

variable (s : State)

@[simp] theorem State.setReg_reg (v : Half) : (s.setReg v).reg = v := rfl
@[simp] theorem State.setReg_freq (v : Half) : (s.setReg v).freq = s.freq := rfl
@[simp] theorem State.setReg_addr (v : Half) : (s.setReg v).addr = s.addr := rfl
@[simp] theorem State.setReg_rel (v : Half) : (s.setReg v).rel = s.rel := rfl
@[simp] theorem State.setReg_devreg (v : Half) : (s.setReg v).devreg = s.devreg := rfl
@[simp] theorem State.setReg_line (v : Half) : (s.setReg v).line = s.line := rfl
@[simp] theorem State.setReg_hung (v : Half) : (s.setReg v).hung = s.hung := rfl
@[simp] theorem State.setReg_responses (v : Half) : (s.setReg v).responses = s.responses := rfl
@[simp] theorem State.setReg_activity (v : Half) : (s.setReg v).activity = s.activity := rfl
@[simp] theorem State.setReg_inputs (v : Half) : (s.setReg v).inputs = s.inputs := rfl
@[simp] theorem State.setReg_busAnswers (v : Half) : (s.setReg v).busAnswers = s.busAnswers := rfl
@[simp] theorem State.setReg_lineAnswers (v : Half) : (s.setReg v).lineAnswers = s.lineAnswers := rfl
@[simp] theorem State.setReg_params (v : Half) : (s.setReg v).params = s.params := rfl
@[simp] theorem State.setReg_draws (v : Half) : (s.setReg v).draws = s.draws := rfl

@[simp] theorem State.setFreq_reg (f : Word) : (s.setFreq f).reg = s.reg := rfl
@[simp] theorem State.setFreq_freq (f : Word) : (s.setFreq f).freq = f := rfl
@[simp] theorem State.setFreq_addr (f : Word) : (s.setFreq f).addr = s.addr := rfl
@[simp] theorem State.setFreq_rel (f : Word) : (s.setFreq f).rel = s.rel := rfl
@[simp] theorem State.setFreq_devreg (f : Word) : (s.setFreq f).devreg = s.devreg := rfl
@[simp] theorem State.setFreq_line (f : Word) : (s.setFreq f).line = s.line := rfl
@[simp] theorem State.setFreq_hung (f : Word) : (s.setFreq f).hung = s.hung := rfl
@[simp] theorem State.setFreq_responses (f : Word) : (s.setFreq f).responses = s.responses := rfl
@[simp] theorem State.setFreq_activity (f : Word) : (s.setFreq f).activity = s.activity := rfl
@[simp] theorem State.setFreq_inputs (f : Word) : (s.setFreq f).inputs = s.inputs := rfl
@[simp] theorem State.setFreq_busAnswers (f : Word) : (s.setFreq f).busAnswers = s.busAnswers := rfl
@[simp] theorem State.setFreq_lineAnswers (f : Word) : (s.setFreq f).lineAnswers = s.lineAnswers := rfl
@[simp] theorem State.setFreq_params (f : Word) : (s.setFreq f).params = s.params := rfl
@[simp] theorem State.setFreq_draws (f : Word) : (s.setFreq f).draws = s.draws := rfl

@[simp] theorem State.setRel_reg (r : Bool) : (s.setRel r).reg = s.reg := rfl
@[simp] theorem State.setRel_freq (r : Bool) : (s.setRel r).freq = s.freq := rfl
@[simp] theorem State.setRel_addr (r : Bool) : (s.setRel r).addr = s.addr := rfl
@[simp] theorem State.setRel_rel (r : Bool) : (s.setRel r).rel = r := rfl
@[simp] theorem State.setRel_devreg (r : Bool) : (s.setRel r).devreg = s.devreg := rfl
@[simp] theorem State.setRel_line (r : Bool) : (s.setRel r).line = s.line := rfl
@[simp] theorem State.setRel_hung (r : Bool) : (s.setRel r).hung = s.hung := rfl
@[simp] theorem State.setRel_responses (r : Bool) : (s.setRel r).responses = s.responses := rfl
@[simp] theorem State.setRel_activity (r : Bool) : (s.setRel r).activity = s.activity := rfl
@[simp] theorem State.setRel_inputs (r : Bool) : (s.setRel r).inputs = s.inputs := rfl
@[simp] theorem State.setRel_busAnswers (r : Bool) : (s.setRel r).busAnswers = s.busAnswers := rfl
@[simp] theorem State.setRel_lineAnswers (r : Bool) : (s.setRel r).lineAnswers = s.lineAnswers := rfl
@[simp] theorem State.setRel_params (r : Bool) : (s.setRel r).params = s.params := rfl
@[simp] theorem State.setRel_draws (r : Bool) : (s.setRel r).draws = s.draws := rfl

@[simp] theorem State.setDevreg_reg (v : Half) : (s.setDevreg v).reg = s.reg := rfl
@[simp] theorem State.setDevreg_freq (v : Half) : (s.setDevreg v).freq = s.freq := rfl
@[simp] theorem State.setDevreg_addr (v : Half) : (s.setDevreg v).addr = s.addr := rfl
@[simp] theorem State.setDevreg_rel (v : Half) : (s.setDevreg v).rel = s.rel := rfl
@[simp] theorem State.setDevreg_devreg (v : Half) : (s.setDevreg v).devreg = v := rfl
@[simp] theorem State.setDevreg_line (v : Half) : (s.setDevreg v).line = s.line := rfl
@[simp] theorem State.setDevreg_hung (v : Half) : (s.setDevreg v).hung = s.hung := rfl
@[simp] theorem State.setDevreg_responses (v : Half) : (s.setDevreg v).responses = s.responses := rfl
@[simp] theorem State.setDevreg_activity (v : Half) : (s.setDevreg v).activity = s.activity := rfl
@[simp] theorem State.setDevreg_inputs (v : Half) : (s.setDevreg v).inputs = s.inputs := rfl
@[simp] theorem State.setDevreg_busAnswers (v : Half) : (s.setDevreg v).busAnswers = s.busAnswers := rfl
@[simp] theorem State.setDevreg_lineAnswers (v : Half) : (s.setDevreg v).lineAnswers = s.lineAnswers := rfl
@[simp] theorem State.setDevreg_params (v : Half) : (s.setDevreg v).params = s.params := rfl
@[simp] theorem State.setDevreg_draws (v : Half) : (s.setDevreg v).draws = s.draws := rfl

@[simp] theorem State.setLine_reg (l : Level) : (s.setLine l).reg = s.reg := rfl
@[simp] theorem State.setLine_freq (l : Level) : (s.setLine l).freq = s.freq := rfl
@[simp] theorem State.setLine_addr (l : Level) : (s.setLine l).addr = s.addr := rfl
@[simp] theorem State.setLine_rel (l : Level) : (s.setLine l).rel = s.rel := rfl
@[simp] theorem State.setLine_devreg (l : Level) : (s.setLine l).devreg = s.devreg := rfl
@[simp] theorem State.setLine_line (l : Level) : (s.setLine l).line = l := rfl
@[simp] theorem State.setLine_hung (l : Level) : (s.setLine l).hung = s.hung := rfl
@[simp] theorem State.setLine_responses (l : Level) : (s.setLine l).responses = s.responses := rfl
@[simp] theorem State.setLine_activity (l : Level) : (s.setLine l).activity = s.activity := rfl
@[simp] theorem State.setLine_inputs (l : Level) : (s.setLine l).inputs = s.inputs := rfl
@[simp] theorem State.setLine_busAnswers (l : Level) : (s.setLine l).busAnswers = s.busAnswers := rfl
@[simp] theorem State.setLine_lineAnswers (l : Level) : (s.setLine l).lineAnswers = s.lineAnswers := rfl
@[simp] theorem State.setLine_params (l : Level) : (s.setLine l).params = s.params := rfl
@[simp] theorem State.setLine_draws (l : Level) : (s.setLine l).draws = s.draws := rfl

@[simp] theorem State.setHung_reg (h : Bool) : (s.setHung h).reg = s.reg := rfl
@[simp] theorem State.setHung_freq (h : Bool) : (s.setHung h).freq = s.freq := rfl
@[simp] theorem State.setHung_addr (h : Bool) : (s.setHung h).addr = s.addr := rfl
@[simp] theorem State.setHung_rel (h : Bool) : (s.setHung h).rel = s.rel := rfl
@[simp] theorem State.setHung_devreg (h : Bool) : (s.setHung h).devreg = s.devreg := rfl
@[simp] theorem State.setHung_line (h : Bool) : (s.setHung h).line = s.line := rfl
@[simp] theorem State.setHung_hung (h : Bool) : (s.setHung h).hung = h := rfl
@[simp] theorem State.setHung_responses (h : Bool) : (s.setHung h).responses = s.responses := rfl
@[simp] theorem State.setHung_activity (h : Bool) : (s.setHung h).activity = s.activity := rfl
@[simp] theorem State.setHung_inputs (h : Bool) : (s.setHung h).inputs = s.inputs := rfl
@[simp] theorem State.setHung_busAnswers (h : Bool) : (s.setHung h).busAnswers = s.busAnswers := rfl
@[simp] theorem State.setHung_lineAnswers (h : Bool) : (s.setHung h).lineAnswers = s.lineAnswers := rfl
@[simp] theorem State.setHung_params (h : Bool) : (s.setHung h).params = s.params := rfl
@[simp] theorem State.setHung_draws (h : Bool) : (s.setHung h).draws = s.draws := rfl

@[simp] theorem State.setInputs_reg (l : List Input) : (s.setInputs l).reg = s.reg := rfl
@[simp] theorem State.setInputs_freq (l : List Input) : (s.setInputs l).freq = s.freq := rfl
@[simp] theorem State.setInputs_addr (l : List Input) : (s.setInputs l).addr = s.addr := rfl
@[simp] theorem State.setInputs_rel (l : List Input) : (s.setInputs l).rel = s.rel := rfl
@[simp] theorem State.setInputs_devreg (l : List Input) : (s.setInputs l).devreg = s.devreg := rfl
@[simp] theorem State.setInputs_line (l : List Input) : (s.setInputs l).line = s.line := rfl
@[simp] theorem State.setInputs_hung (l : List Input) : (s.setInputs l).hung = s.hung := rfl
@[simp] theorem State.setInputs_responses (l : List Input) : (s.setInputs l).responses = s.responses := rfl
@[simp] theorem State.setInputs_activity (l : List Input) : (s.setInputs l).activity = s.activity := rfl
@[simp] theorem State.setInputs_inputs (l : List Input) : (s.setInputs l).inputs = l := rfl
@[simp] theorem State.setInputs_busAnswers (l : List Input) : (s.setInputs l).busAnswers = s.busAnswers := rfl
@[simp] theorem State.setInputs_lineAnswers (l : List Input) : (s.setInputs l).lineAnswers = s.lineAnswers := rfl
@[simp] theorem State.setInputs_params (l : List Input) : (s.setInputs l).params = s.params := rfl
@[simp] theorem State.setInputs_draws (l : List Input) : (s.setInputs l).draws = s.draws := rfl

@[simp] theorem State.record_reg (e : EnvEvent) : (s.record e).reg = s.reg := rfl
@[simp] theorem State.record_freq (e : EnvEvent) : (s.record e).freq = s.freq := rfl
@[simp] theorem State.record_addr (e : EnvEvent) : (s.record e).addr = s.addr := rfl
@[simp] theorem State.record_rel (e : EnvEvent) : (s.record e).rel = s.rel := rfl
@[simp] theorem State.record_devreg (e : EnvEvent) : (s.record e).devreg = s.devreg := rfl
@[simp] theorem State.record_line (e : EnvEvent) : (s.record e).line = s.line := rfl
@[simp] theorem State.record_hung (e : EnvEvent) : (s.record e).hung = s.hung := rfl
@[simp] theorem State.record_responses (e : EnvEvent) : (s.record e).responses = s.responses := rfl
@[simp] theorem State.record_activity (e : EnvEvent) : (s.record e).activity = e :: s.activity := rfl
@[simp] theorem State.record_inputs (e : EnvEvent) : (s.record e).inputs = s.inputs := rfl
@[simp] theorem State.record_busAnswers (e : EnvEvent) : (s.record e).busAnswers = s.busAnswers := rfl
@[simp] theorem State.record_lineAnswers (e : EnvEvent) : (s.record e).lineAnswers = s.lineAnswers := rfl
@[simp] theorem State.record_params (e : EnvEvent) : (s.record e).params = s.params := rfl
@[simp] theorem State.record_draws (e : EnvEvent) : (s.record e).draws = s.draws := rfl

@[simp] theorem State.useBusAnswer_reg : (s.useBusAnswer).reg = s.reg := rfl
@[simp] theorem State.useBusAnswer_freq : (s.useBusAnswer).freq = s.freq := rfl
@[simp] theorem State.useBusAnswer_addr : (s.useBusAnswer).addr = s.addr := rfl
@[simp] theorem State.useBusAnswer_rel : (s.useBusAnswer).rel = s.rel := rfl
@[simp] theorem State.useBusAnswer_devreg : (s.useBusAnswer).devreg = s.devreg := rfl
@[simp] theorem State.useBusAnswer_line : (s.useBusAnswer).line = s.line := rfl
@[simp] theorem State.useBusAnswer_hung : (s.useBusAnswer).hung = s.hung := rfl
@[simp] theorem State.useBusAnswer_responses : (s.useBusAnswer).responses = s.responses := rfl
@[simp] theorem State.useBusAnswer_activity : (s.useBusAnswer).activity = s.activity := rfl
@[simp] theorem State.useBusAnswer_inputs : (s.useBusAnswer).inputs = s.inputs := rfl
@[simp] theorem State.useBusAnswer_busAnswers : (s.useBusAnswer).busAnswers = s.busAnswers.tail := rfl
@[simp] theorem State.useBusAnswer_lineAnswers : (s.useBusAnswer).lineAnswers = s.lineAnswers := rfl
@[simp] theorem State.useBusAnswer_params : (s.useBusAnswer).params = s.params := rfl
@[simp] theorem State.useBusAnswer_draws : (s.useBusAnswer).draws = s.draws := rfl

@[simp] theorem State.useLineAnswer_reg : (s.useLineAnswer).reg = s.reg := rfl
@[simp] theorem State.useLineAnswer_freq : (s.useLineAnswer).freq = s.freq := rfl
@[simp] theorem State.useLineAnswer_addr : (s.useLineAnswer).addr = s.addr := rfl
@[simp] theorem State.useLineAnswer_rel : (s.useLineAnswer).rel = s.rel := rfl
@[simp] theorem State.useLineAnswer_devreg : (s.useLineAnswer).devreg = s.devreg := rfl
@[simp] theorem State.useLineAnswer_line : (s.useLineAnswer).line = s.line := rfl
@[simp] theorem State.useLineAnswer_hung : (s.useLineAnswer).hung = s.hung := rfl
@[simp] theorem State.useLineAnswer_responses : (s.useLineAnswer).responses = s.responses := rfl
@[simp] theorem State.useLineAnswer_activity : (s.useLineAnswer).activity = s.activity := rfl
@[simp] theorem State.useLineAnswer_inputs : (s.useLineAnswer).inputs = s.inputs := rfl
@[simp] theorem State.useLineAnswer_busAnswers : (s.useLineAnswer).busAnswers = s.busAnswers := rfl
@[simp] theorem State.useLineAnswer_lineAnswers : (s.useLineAnswer).lineAnswers = s.lineAnswers.tail := rfl
@[simp] theorem State.useLineAnswer_params : (s.useLineAnswer).params = s.params := rfl
@[simp] theorem State.useLineAnswer_draws : (s.useLineAnswer).draws = s.draws := rfl

@[simp] theorem State.draw_reg : (s.draw).reg = s.reg := rfl
@[simp] theorem State.draw_freq : (s.draw).freq = s.freq := rfl
@[simp] theorem State.draw_addr : (s.draw).addr = s.addr := rfl
@[simp] theorem State.draw_rel : (s.draw).rel = s.rel := rfl
@[simp] theorem State.draw_devreg : (s.draw).devreg = s.devreg := rfl
@[simp] theorem State.draw_line : (s.draw).line = s.line := rfl
@[simp] theorem State.draw_hung : (s.draw).hung = s.hung := rfl
@[simp] theorem State.draw_responses : (s.draw).responses = s.responses := rfl
@[simp] theorem State.draw_activity : (s.draw).activity = s.activity := rfl
@[simp] theorem State.draw_inputs : (s.draw).inputs = s.inputs := rfl
@[simp] theorem State.draw_busAnswers : (s.draw).busAnswers = s.busAnswers := rfl
@[simp] theorem State.draw_lineAnswers : (s.draw).lineAnswers = s.lineAnswers := rfl
@[simp] theorem State.draw_params : (s.draw).params = s.params := rfl
@[simp] theorem State.draw_draws : (s.draw).draws = s.draws + 1 := rfl

@[simp] theorem State.respond_reg (st : Status) (d : Word) : (s.respond st d).reg = s.reg := rfl
@[simp] theorem State.respond_freq (st : Status) (d : Word) : (s.respond st d).freq = s.freq := rfl
@[simp] theorem State.respond_addr (st : Status) (d : Word) : (s.respond st d).addr = s.addr := rfl
@[simp] theorem State.respond_rel (st : Status) (d : Word) : (s.respond st d).rel = s.rel := rfl
@[simp] theorem State.respond_devreg (st : Status) (d : Word) : (s.respond st d).devreg = s.devreg := rfl
@[simp] theorem State.respond_line (st : Status) (d : Word) : (s.respond st d).line = s.line := rfl
@[simp] theorem State.respond_hung (st : Status) (d : Word) : (s.respond st d).hung = s.hung := rfl
@[simp] theorem State.respond_responses (st : Status) (d : Word) : (s.respond st d).responses = ⟨st, d⟩ :: s.responses := rfl
@[simp] theorem State.respond_activity (st : Status) (d : Word) : (s.respond st d).activity = s.activity := rfl
@[simp] theorem State.respond_inputs (st : Status) (d : Word) : (s.respond st d).inputs = s.inputs := rfl
@[simp] theorem State.respond_busAnswers (st : Status) (d : Word) : (s.respond st d).busAnswers = s.busAnswers := rfl
@[simp] theorem State.respond_lineAnswers (st : Status) (d : Word) : (s.respond st d).lineAnswers = s.lineAnswers := rfl
@[simp] theorem State.respond_params (st : Status) (d : Word) : (s.respond st d).params = s.params := rfl
@[simp] theorem State.respond_draws (st : Status) (d : Word) : (s.respond st d).draws = s.draws := rfl

@[simp] theorem State.raise_reg (st : Status) (d : Word) : (s.raise st d).reg = s.reg := rfl
@[simp] theorem State.raise_freq (st : Status) (d : Word) : (s.raise st d).freq = s.freq := rfl
@[simp] theorem State.raise_addr (st : Status) (d : Word) : (s.raise st d).addr = s.addr := rfl
@[simp] theorem State.raise_rel (st : Status) (d : Word) : (s.raise st d).rel = s.rel := rfl
@[simp] theorem State.raise_devreg (st : Status) (d : Word) : (s.raise st d).devreg = s.devreg := rfl
@[simp] theorem State.raise_line (st : Status) (d : Word) : (s.raise st d).line = s.line := rfl
@[simp] theorem State.raise_hung (st : Status) (d : Word) : (s.raise st d).hung = s.hung := rfl
@[simp] theorem State.raise_responses (st : Status) (d : Word) : (s.raise st d).responses = ⟨st, d⟩ :: s.responses := rfl
@[simp] theorem State.raise_activity (st : Status) (d : Word) : (s.raise st d).activity = s.activity := rfl
@[simp] theorem State.raise_inputs (st : Status) (d : Word) : (s.raise st d).inputs = s.inputs := rfl
@[simp] theorem State.raise_busAnswers (st : Status) (d : Word) : (s.raise st d).busAnswers = s.busAnswers := rfl
@[simp] theorem State.raise_lineAnswers (st : Status) (d : Word) : (s.raise st d).lineAnswers = s.lineAnswers := rfl
@[simp] theorem State.raise_params (st : Status) (d : Word) : (s.raise st d).params = s.params := rfl
@[simp] theorem State.raise_draws (st : Status) (d : Word) : (s.raise st d).draws = s.draws := rfl

end Sys2Proof.Machine
end

