-- ==== Sys2Proof/Laws/Ops.lean ====
section
/-!
SUPPORT. One lemma per shared operation that says all it can do; proofs cite these and do not unfold the operations.
-/

namespace Sys2Proof.Machine

theorem whenOwned_released (body : State → State) (s : State) (h : s.rel = true) :
    whenOwned body s = .next { s with responses := ⟨.released, 0#32⟩ :: s.responses } := by
  simp [whenOwned, h, State.raise, State.respond]

theorem whenOwned_owned (body : State → State) (s : State) (h : s.rel = false) :
    whenOwned body s = .next (body s) := by
  simp [whenOwned, h]

@[simp] theorem settle_ok {α : Type} (st : Status) (f : α → State → State) (a : α) (s : State) :
    settle st f (some (.ok a), s) = (f a s).respond .ok 0#32 := rfl

@[simp] theorem settle_err {α : Type} (st : Status) (f : α → State → State) (e : Word) (s : State) :
    settle st f (some (.err e), s) = s.raise st e := rfl

@[simp] theorem settle_none {α : Type} (st : Status) (f : α → State → State) (s : State) :
    settle st f (none, s) = s.setHung true := rfl

@[simp] theorem answerAtWidth_ok {α : Type} (w : Nat) (a : α) : answerAtWidth w (.ok a) = .ok a := rfl

@[simp] theorem answerAtWidth_err {α : Type} (w : Nat) (e : Word) :
    answerAtWidth (α := α) w (.err e) = .err (errorAtWidth w e) := rfl

/-- An error value fits its type's width. -/
theorem errorAtWidth_lt (w : Nat) (e : Word) : (errorAtWidth w e).toNat < 2 ^ w := by
  simp only [errorAtWidth, BitVec.toNat_setWidth]
  exact (Nat.mod_le _ _).trans_lt (Nat.mod_lt _ (by positivity))

/-- At the widest, an error value is itself. -/
@[simp] theorem errorAtWidth_32 (e : Word) : errorAtWidth 32 e = e := by simp [errorAtWidth]

/-- The only errors answerAtWidth gives are those that fit. -/
theorem answerAtWidth_err_lt {α : Type} (w : Nat) (a : Answer Word α) (e : Word) (h : answerAtWidth w a = .err e) :
    e.toNat < 2 ^ w := by
  cases a with
  | ok a => cases h
  | err e' => cases h; exact errorAtWidth_lt w e'

/-- The transport's error has BUSERR_W bits. -/
theorem nextBusAnswer_err_lt (s : State) (e : BusErr) (h : s.nextBusAnswer = some (.err e)) :
    e.toNat < 2 ^ s.params.busErrWidth := by
  unfold State.nextBusAnswer at h
  split at h
  · exact answerAtWidth_err_lt _ _ _ (Option.some.inj h)
  · obtain ⟨a, -, ha⟩ := Option.map_eq_some_iff.1 h
    exact answerAtWidth_err_lt _ _ _ ha

/-- The line's error has LINEERR_W bits. -/
theorem nextLineAnswer_err_lt (s : State) (e : LineErr) (h : s.nextLineAnswer = some (.err e)) :
    e.toNat < 2 ^ s.params.lineErrWidth := by
  unfold State.nextLineAnswer at h
  split at h
  · exact answerAtWidth_err_lt _ _ _ (Option.some.inj h)
  · obtain ⟨a, -, ha⟩ := Option.map_eq_some_iff.1 h
    exact answerAtWidth_err_lt _ _ _ ha

/-- What a write leaves in the target: its bytes when answered Ok, a free value otherwise. -/
theorem busWrite_cases (a : BusAddr) (b0 b1 : Byte) (s : State) :
    ∃ d, busWrite a b0 b1 s = (s.nextBusAnswer, { s with
        devreg := d, activity := .busWrite a b0 b1 s.nextBusAnswer :: s.activity
        busAnswers := s.busAnswers.tail, draws := s.draws + 1 }) ∧
      (s.nextBusAnswer = some (.ok ()) → d = ofBytes b0 b1) :=
  ⟨_, rfl, fun h => by simp [h]⟩

/-- A read leaves the target as it is and delivers its two bytes. -/
theorem busRead_eq (a : BusAddr) (s : State) :
    busRead a s = (s.readAnswer, { s with
      activity := .busRead a s.readAnswer :: s.activity
      busAnswers := s.busAnswers.tail, draws := s.draws + 1 }) := rfl

theorem readAnswer_ok (s : State) (h : s.nextBusAnswer = some (.ok ())) :
    s.readAnswer = some (.ok (firstByte s.devreg, secondByte s.devreg)) := by
  simp [State.readAnswer, h]

theorem readAnswer_err (s : State) (e : BusErr) (h : s.nextBusAnswer = some (.err e)) :
    s.readAnswer = some (.err e) := by
  simp [State.readAnswer, h]

theorem readAnswer_none (s : State) (h : s.nextBusAnswer = none) : s.readAnswer = none := by
  simp [State.readAnswer, h]

/-- What a line operation leaves: its level when answered Ok, a free level otherwise. -/
theorem lineSet_cases (l : Level) (s : State) :
    ∃ m, lineSet l s = (s.nextLineAnswer, { s with
        line := m, activity := .lineSet l s.nextLineAnswer :: s.activity
        lineAnswers := s.lineAnswers.tail, draws := s.draws + 1 }) ∧
      (s.nextLineAnswer = some (.ok ()) → m = l) :=
  ⟨_, rfl, fun h => by simp [h]⟩

/-- A command's own effect: what exec does while REL = 0. -/
def effect : Instr → State → State
  | .setoct v => setFieldCommand .oct (v.setWidth 16)
  | .getoct => getFieldCommand .oct
  | .setdac v => setFieldCommand .dac (v.setWidth 16)
  | .getdac => getFieldCommand .dac
  | .setcnf v => setFieldCommand .cnf (v.setWidth 16)
  | .getcnf => getFieldCommand .cnf
  | .setfreq f => setFreqCommand f
  | .getfreq => fun s => s.respond .ok s.freq
  | .setconf c => setFieldCommand .cnf (c.number.setWidth 16)
  | .wrout => fun s =>
      settle .busError (fun _ t => t) (busWrite s.addr (firstByte s.reg) (secondByte s.reg) s)
  | .refresh => fun s =>
      settle .busError (fun bytes t => t.setReg (ofBytes bytes.1 bytes.2)) (busRead s.addr s)
  | .oen => fun s => settle .lineError (fun _ t => t) (lineSet .high s)
  | .odis => fun s => settle .lineError (fun _ t => t) (lineSet .low s)
  | .free => fun s => (s.setRel true).respond .ok 0#32

/-- What exec can do: RELEASED with no effect, or the command's own effect. It always answers a next state. -/
theorem exec_eq (i : Instr) (s : State) :
    exec i s = .next (if s.rel then s.raise .released 0#32 else effect i s) := by
  cases i <;> rfl

theorem exec_owned (i : Instr) (s : State) (h : s.rel = false) : exec i s = .next (effect i s) := by
  simp [exec_eq, h]

theorem exec_released (i : Instr) (s : State) (h : s.rel = true) :
    exec i s = .next (s.raise .released 0#32) := by
  simp [exec_eq, h]

/-- What step can do, for each next move. -/
theorem step_cases (s t : State) (h : step s = .next t) :
    (s.inputs = [] ∧ t = s) ∨
    (∃ w rest i, s.inputs = .command w :: rest ∧ s.hung = false ∧ decode w = .command i ∧
      exec i (s.setInputs rest) = .next t) ∨
    (∃ w rest r, s.inputs = .command w :: rest ∧ s.hung = false ∧ decode w = .reserved r ∧
      t = (s.setInputs rest).raise .illegal 0#32) ∨
    (∃ a rest, s.inputs = .reset a :: rest ∧ t = hostReset a (s.setInputs rest)) ∨
    (∃ v rest, s.inputs = .otherMaster v :: rest ∧ t = (s.setInputs rest).setDevreg v) := by
  unfold step nextMove at h
  split at h
  · next hm =>
    split at hm
    · exact .inl ⟨‹_›, by simpa using h.symm⟩
    · split at hm
      · cases hm
      · split at hm <;> cases hm
    · cases hm
    · cases hm
  · next i u hm =>
    split at hm
    · cases hm
    · next w rest hin =>
      split at hm
      · cases hm
      · next hh =>
        split at hm
        · next j hd =>
          cases hm
          exact .inr (.inl ⟨w, rest, i, hin, by simpa using hh, hd, h⟩)
        · cases hm
    · cases hm
    · cases hm
  · next u hm =>
    cases h
    split at hm
    · cases hm
    · next w rest hin =>
      split at hm
      · cases hm
      · next hh =>
        split at hm
        · cases hm
        · next r hd =>
          cases hm
          exact .inr (.inr (.inl ⟨w, rest, r, hin, by simpa using hh, hd, rfl⟩))
    · next a rest hin => cases hm; exact .inr (.inr (.inr (.inl ⟨a, rest, hin, rfl⟩)))
    · next v rest hin => cases hm; exact .inr (.inr (.inr (.inr ⟨v, rest, hin, rfl⟩)))
  · cases h

/-- What the host's reset leaves: LINE free, and DEVREG kept unless it ended a command in progress. -/
theorem hostReset_cases (a : Bool) (s : State) :
    ∃ l, (s.hung = false ∧ hostReset a s = { s with
      reg := 0x0000#16, freq := 1039#32, addr := strapAddr a, rel := false
      line := l, draws := s.draws + 1 }) ∨
    (s.hung = true ∧ ∃ d, hostReset a s = { s with
      reg := 0x0000#16, freq := 1039#32, addr := strapAddr a, rel := false, hung := false
      devreg := d, line := l, draws := s.draws + 1 }) := by
  refine ⟨Config.freeLine s.draws, ?_⟩
  cases h : s.hung
  · exact .inl ⟨rfl, by simp [hostReset, endHang, poreReset, h, Config.fMin, State.setLine, State.draw]⟩
  · exact .inr ⟨rfl, Config.freeDevreg s.draws, by
      simp [hostReset, endHang, poreReset, h, Config.fMin, State.setHung, State.setDevreg, State.setLine, State.draw]⟩

/-- What a state after reset holds: State.reset but for what is open there. -/
theorem resetWith_eq (p : Params) (a : Bool) (d : Half) (l : Level) :
    State.resetWith p a d l = { State.reset with addr := strapAddr a, params := p, devreg := d, line := l } := rfl

/-- State.reset is the state after reset with the defaults. -/
theorem reset_eq_resetWith : State.reset = State.resetWith Config.params false 0x0000#16 .low := rfl

@[simp] theorem strapAddr_low : strapAddr false = 0x17#7 := rfl

@[simp] theorem strapAddr_high : strapAddr true = 0x16#7 := rfl

end Sys2Proof.Machine
end

