-- ==== Sys2Proof/Laws/Words.lean ====
section
/-!
SUPPORT. Concatenations bit by bit at the widths of the model: a word of the ports is op or status above 32 bits, a
register is two bytes, or its fields. The library's lemma has the width as a sum; here the width is the numeral.
-/

namespace Sys2Proof

theorem getLsbD_append_word (a : BitVec 4) (b : Word) (i : Nat) :
    BitVec.getLsbD (a ++ b : BitVec 36) i = if i < 32 then b.getLsbD i else a.getLsbD (i - 32) :=
  BitVec.getLsbD_append

theorem getLsbD_append_bytes (a b : Byte) (i : Nat) :
    BitVec.getLsbD (a ++ b : BitVec 16) i = if i < 8 then b.getLsbD i else a.getLsbD (i - 8) :=
  BitVec.getLsbD_append

theorem getLsbD_append_oct (a : BitVec 4) (b : BitVec 12) (i : Nat) :
    BitVec.getLsbD (a ++ b : BitVec 16) i = if i < 12 then b.getLsbD i else a.getLsbD (i - 12) :=
  BitVec.getLsbD_append

theorem getLsbD_append_cnf (a : BitVec 14) (b : BitVec 2) (i : Nat) :
    BitVec.getLsbD (a ++ b : BitVec 16) i = if i < 2 then b.getLsbD i else a.getLsbD (i - 2) :=
  BitVec.getLsbD_append

theorem getLsbD_append_fields (a : BitVec 4) (b : BitVec 10) (c : BitVec 2) (i : Nat) :
    BitVec.getLsbD (a ++ b ++ c : BitVec 16) i =
      if i < 2 then c.getLsbD i else if i - 2 < 10 then b.getLsbD (i - 2) else a.getLsbD (i - 2 - 10) := by
  show BitVec.getLsbD ((a ++ b : BitVec 14) ++ c : BitVec 16) i = _
  rw [getLsbD_append_cnf]
  split
  · rfl
  · exact BitVec.getLsbD_append

/-- Two bit vectors are equal when their bits are. -/
theorem eq_of_bits {n : Nat} {a b : BitVec n} (h : ∀ i, i < n → a.getLsbD i = b.getLsbD i) : a = b :=
  BitVec.eq_of_getLsbD_eq h

/-- The upper field of a port's word. -/
@[simp] theorem extract_op_append (a : BitVec 4) (b : Word) :
    BitVec.extractLsb' 32 4 (a ++ b : BitVec 36) = a := by
  apply eq_of_bits
  intro i hi
  rw [BitVec.getLsbD_extractLsb', getLsbD_append_word]
  simp [hi]

/-- The lower field of a port's word. -/
@[simp] theorem extract_arg_append (a : BitVec 4) (b : Word) :
    BitVec.extractLsb' 0 32 (a ++ b : BitVec 36) = b := by
  apply eq_of_bits
  intro i hi
  rw [BitVec.getLsbD_extractLsb', getLsbD_append_word]
  simp [hi]

/-- A port's word is its two fields. -/
theorem append_extract (w : BitVec 36) :
    (BitVec.extractLsb' 32 4 w ++ BitVec.extractLsb' 0 32 w : BitVec 36) = w := by
  apply eq_of_bits
  intro i hi
  rw [getLsbD_append_word]
  split
  · next h => simp [h]
  · next h => simp [show i - 32 < 4 by omega, show 32 + (i - 32) = i by omega]

/-- Equal words have equal fields. -/
theorem append_word_inj {a b : BitVec 4} {c d : Word} :
    (a ++ c : BitVec 36) = (b ++ d : BitVec 36) ↔ a = b ∧ c = d := by
  constructor
  · intro h
    exact ⟨by simpa using congrArg (BitVec.extractLsb' 32 4) h, by simpa using congrArg (BitVec.extractLsb' 0 32) h⟩
  · rintro ⟨rfl, rfl⟩
    rfl

end Sys2Proof
end

