-- ==== Sys2Proof/Laws/PerInstr.lean ====
section
/-!
SUPPORT. Facts about every command as syntax, one lemma per constructor: it is well formed (30_encoding.md rule R53), and its
word starts with the opcode of its row and has arg under the operand's bound (R52, R54).
-/

namespace Sys2Proof.Laws.WordOfRow

/-- The command is well formed, op is its row's opcode, and arg has no bit above the operand slice. -/
def Statement (i : Instr) : Prop :=
  i.wellFormed = true ∧ opField (encode i) = i.mnemonic.opcode ∧ argField (encode i) = i.arg ∧
    i.arg.toNat < i.mnemonic.operandCount.getD 1

/-- op and arg of any command's word. -/
theorem fields (i : Instr) : opField (encode i) = i.mnemonic.opcode ∧ argField (encode i) = i.arg := by
  simp [opField, argField, encode]

theorem setoct (v : BitVec 4) : Statement (.setoct v) :=
  ⟨by simp [Instr.wellFormed]; omega, (fields _).1, (fields _).2, by
    simp [Instr.arg, Instr.mnemonic, Mnemonic.operandCount]; omega⟩

theorem getoct : Statement .getoct :=
  ⟨rfl, (fields _).1, (fields _).2, by decide⟩

theorem setdac (v : BitVec 10) : Statement (.setdac v) :=
  ⟨by simp [Instr.wellFormed]; omega, (fields _).1, (fields _).2, by
    simp [Instr.arg, Instr.mnemonic, Mnemonic.operandCount]; omega⟩

theorem getdac : Statement .getdac :=
  ⟨rfl, (fields _).1, (fields _).2, by decide⟩

theorem setcnf (v : BitVec 2) : Statement (.setcnf v) :=
  ⟨by simp [Instr.wellFormed]; omega, (fields _).1, (fields _).2, by
    simp [Instr.arg, Instr.mnemonic, Mnemonic.operandCount]; omega⟩

theorem getcnf : Statement .getcnf :=
  ⟨rfl, (fields _).1, (fields _).2, by decide⟩

theorem setfreq (f : Word) : Statement (.setfreq f) :=
  ⟨by simp [Instr.wellFormed]; omega, (fields _).1, (fields _).2, by
    simp [Instr.arg, Instr.mnemonic, Mnemonic.operandCount]; omega⟩

theorem getfreq : Statement .getfreq :=
  ⟨rfl, (fields _).1, (fields _).2, by decide⟩

theorem setconf (c : OutputConf) : Statement (.setconf c) :=
  ⟨rfl, (fields _).1, (fields _).2, by cases c <;> decide⟩

theorem wrout : Statement .wrout :=
  ⟨rfl, (fields _).1, (fields _).2, by decide⟩

theorem refresh : Statement .refresh :=
  ⟨rfl, (fields _).1, (fields _).2, by decide⟩

theorem oen : Statement .oen :=
  ⟨rfl, (fields _).1, (fields _).2, by decide⟩

theorem odis : Statement .odis :=
  ⟨rfl, (fields _).1, (fields _).2, by decide⟩

theorem free : Statement .free :=
  ⟨rfl, (fields _).1, (fields _).2, by decide⟩

end Sys2Proof.Laws.WordOfRow
end

