-- ==== Sys2Proof/Laws/Run.lean ====
section
/-!
SUPPORT. Induction along a run, once: what holds at its start and is kept by every step holds at its end.
-/

namespace Sys2Proof.Machine

theorem run_induction (P : State → Prop) (hstep : ∀ s t, P s → step s = .next t → P t) (k : Nat) (s t : State)
    (hs : P s) (hr : core.run k s = .next t) : P t := by
  induction k generalizing s with
  | zero => cases hr; exact hs
  | succ k ih =>
    simp only [Host.Core.run] at hr
    split at hr
    · next u hu => exact ih u (hstep s u hs hu) hr
    · cases hr
    · cases hr

end Sys2Proof.Machine
end

