-- ==== Sys2Proof/Tests/Slice0.lean ====
section
/-!
SUPPORT. Small tests, each about one step or one operation. Expected values are the spec's: 95_test_vectors.md (S1 to S6,
V1 to V7, P1 to P5) and the worked examples of the command rules. Then one witness per statement that has hypotheses.
-/

namespace Sys2Proof.Tests

open Sys2Proof.Machine

/-! ### Helpers -/

/-- The state of an outcome, if there is one. -/
def after : Host.Outcome State Fault Refusal → Option State
  | .next s => some s
  | .fault _ => none
  | .refused _ => none

/-- The reset state with a register value. -/
def withReg (r : Half) : State := { State.reset with reg := r }

/-- A state whose environment answers its next operations with the answers given. -/
def answered (r d : Half) (bus : List (Option BusAnswer)) (line : List (Option LineAnswer)) : State :=
  { State.reset with reg := r, devreg := d, busAnswers := bus, lineAnswers := line }

/-- A state whose host presents the words given. -/
def presented (ws : List CmdWord) : State := { State.reset with inputs := ws.map Input.command }

/-- The register, and the newest response's word, after an outcome. -/
def regAndWord (o : Host.Outcome State Fault Refusal) : Option (Half × Option RspWord) :=
  (after o).map fun s => (s.reg, s.responses.head?.map Response.word)

/-- Another table R91 allows: band 0 ends a hertz lower and bands 1 and 2 overlap; and error widths of w bits. -/
def otherParams (w : Nat) : Params :=
  ⟨⟨1039, 2076⟩ :: ⟨2077, 4160⟩ :: Config.bands.drop 2, w, w⟩

/-! ### WellFormed smoke: every check refuses an ill-formed term (R62, R63, R91) -/

theorem test_wf_operand_missing : AsmLine.operandPresence ⟨.setoct, none⟩ = false := by decide
theorem test_wf_operand_extra : AsmLine.operandPresence ⟨.wrout, some (.number 1)⟩ = false := by decide
theorem test_wf_operand_range : AsmLine.operandRange ⟨.setoct, some (.number 16)⟩ = false := by decide
theorem test_wf_operand_range_dac : AsmLine.operandRange ⟨.setdac, some (.number 1024)⟩ = false := by decide
theorem test_wf_symbol_place : AsmLine.symbolPlace ⟨.setcnf, some (.symbol .both)⟩ = false := by decide
theorem test_wf_line : AsmLine.wellFormed ⟨.setdac, some (.number 1024)⟩ = false := by decide
theorem test_wf_line_good : AsmLine.wellFormed ⟨.setdac, some (.number 1023)⟩ = true := by decide
theorem test_wf_band_order : Band.ordered ⟨5, 4⟩ = false := by decide
theorem test_wf_bands_gap : bandsChained [⟨1039, 2076⟩, ⟨2078, 4152⟩] = false := by decide
theorem test_wf_bands_decreasing : bandsChained [⟨2078, 4155⟩, ⟨1039, 2077⟩] = false := by decide
theorem test_wf_bands_count : bandsCount [⟨1039, 68030000⟩] = false := by decide
theorem test_wf_bands_ends : bandsEnds [⟨1038, 68030000⟩] = false := by decide
theorem test_wf_bands : bandsWellFormed (Config.bands.drop 1) = false := by decide
theorem test_wf_bands_partition : bandsPartition [⟨1039, 2080⟩, ⟨2078, 4155⟩] = false := by decide

theorem test_wf_error_width : Params.errorWidths ⟨[], 33, 32⟩ = false ∧ Params.errorWidths ⟨[], 32, 33⟩ = false := by
  decide
theorem test_wf_params : Params.wellFormed ⟨Config.bands.drop 1, 8, 8⟩ = false := by decide
theorem test_wf_params_good : Params.wellFormed (otherParams 8) = true := by decide

/-! ### Decoding: words written out from R52 to R54, bit by bit (op, then arg) -/

theorem test_decode_setoct : decode 0b0001_0000_0000_0000_0000_0000_0000_0000_0110#36 = .command (.setoct 6#4) := by
  decide
theorem test_decode_getoct : decode 0b0010_0000_0000_0000_0000_0000_0000_0000_0000#36 = .command .getoct := by decide
theorem test_decode_setdac : decode 0b0011_0000_0000_0000_0000_0000_0011_0001_0100#36 = .command (.setdac 788#10) := by
  decide
theorem test_decode_getdac : decode 0b0100_0000_0000_0000_0000_0000_0000_0000_0000#36 = .command .getdac := by decide
theorem test_decode_setcnf : decode 0b0101_0000_0000_0000_0000_0000_0000_0000_0001#36 = .command (.setcnf 1#2) := by
  decide
theorem test_decode_getcnf : decode 0b0110_0000_0000_0000_0000_0000_0000_0000_0000#36 = .command .getcnf := by decide
theorem test_decode_setfreq :
    decode 0b0111_0000_0000_0000_0001_1010_0101_1110_0000#36 = .command (.setfreq 108000#32) := by decide
theorem test_decode_getfreq : decode 0b1000_0000_0000_0000_0000_0000_0000_0000_0000#36 = .command .getfreq := by decide
theorem test_decode_setconf : decode 0b1001_0000_0000_0000_0000_0000_0000_0000_0011#36 = .command (.setconf .off) := by
  decide
theorem test_decode_wrout : decode 0b1010_0000_0000_0000_0000_0000_0000_0000_0000#36 = .command .wrout := by decide
theorem test_decode_refresh : decode 0b1011_0000_0000_0000_0000_0000_0000_0000_0000#36 = .command .refresh := by decide
theorem test_decode_oen : decode 0b1100_0000_0000_0000_0000_0000_0000_0000_0000#36 = .command .oen := by decide
theorem test_decode_odis : decode 0b1101_0000_0000_0000_0000_0000_0000_0000_0000#36 = .command .odis := by decide
theorem test_decode_free : decode 0b1110_0000_0000_0000_0000_0000_0000_0000_0000#36 = .command .free := by decide

/-- V6, the reserved words. -/
theorem test_decode_reserved_opcodes : decode 0x000000000#36 = .reserved .opcode ∧
    decode 0xF00000000#36 = .reserved .opcode ∧ decode 0x0DEADBEEF#36 = .reserved .opcode := by decide
theorem test_decode_reserved_arguments : decode 0x100000010#36 = .reserved .argument ∧
    decode 0x300000400#36 = .reserved .argument ∧ decode 0x500000004#36 = .reserved .argument ∧
    decode 0x900000004#36 = .reserved .argument ∧ decode 0x200000001#36 = .reserved .argument ∧
    decode 0xE80000000#36 = .reserved .argument := by decide
theorem test_decode_table_word : decodeTableWord 40 0x70001A5E0 = some (.setfreq 108000#32) := by decide

/-- R62: hexadecimal and binary numerals, comments, empty lines, and an operand out of range. -/
theorem test_asm_hex : assembleText "SETDAC 0x314 ; fine".toList = some [0x300000314#36] := by decide
theorem test_asm_binary : assembleText "SETCNF 0b01".toList = some [0x500000001#36] := by decide
theorem test_asm_empty : assembleText "; nothing".toList = some [] := by decide
theorem test_asm_error : assembleText "SETOCT 16".toList = none := by decide

/-! ### Register model (V1) -/

theorem test_setoct : regAndWord (exec (.setoct 6#4) (withReg 0x0C51#16)) = some (0x6C51#16, some 0x000000000#36) := by
  decide
theorem test_setoct_clear : regAndWord (exec (.setoct 0#4) (withReg 0xFFFF#16)) = some (0x0FFF#16, some 0#36) := by decide
theorem test_getoct : regAndWord (exec .getoct (withReg 0xABCD#16)) = some (0xABCD#16, some 0x00000000A#36) := by decide
theorem test_setdac : regAndWord (exec (.setdac 788#10) (withReg 0x6001#16)) = some (0x6C51#16, some 0#36) := by decide
theorem test_setdac_top : regAndWord (exec (.setdac 512#10) (withReg 0xFFFF#16)) = some (0xF803#16, some 0#36) := by decide
theorem test_getdac : regAndWord (exec .getdac (withReg 0xABCD#16)) = some (0xABCD#16, some 0x0000002F3#36) := by decide
theorem test_setcnf : regAndWord (exec (.setcnf 1#2) (withReg 0x6C50#16)) = some (0x6C51#16, some 0#36) := by decide
theorem test_setcnf_clear : regAndWord (exec (.setcnf 0#2) (withReg 0xFFFF#16)) = some (0xFFFC#16, some 0#36) := by decide
theorem test_getcnf : regAndWord (exec .getcnf (withReg 0xABCD#16)) = some (0xABCD#16, some 0x000000001#36) := by decide

/-! ### Frequency encoder (V3) -/

/-- 108 000 Hz with CNF = 3: octave 6, DAC 788, CNF kept. -/
theorem test_setfreq : regAndWord (exec (.setfreq 108000#32) (withReg 0xFFFF#16)) =
    some (0x6C53#16, some 0x000006C53#36) := by decide

/-- A row a 32-bit product would get wrong. -/
theorem test_setfreq_wide : regAndWord (exec (.setfreq 4000000#32) (withReg 0#16)) =
    some (0xBEFC#16, some 0x00000BEFC#36) := by decide

/-- Another band table, by R93 and R95: 2077 lies in band 1, where 2078 * 2048 div 2077 = 2048, so d = 0; 4157 lies in
bands 1 and 2, the first wins, 2078 * 2048 div 4157 = 1023, so d = 1025 and DAC = 1. -/
theorem test_setfreq_other_table :
    regAndWord (exec (.setfreq 2077#32) { State.reset with params := otherParams 8 }) =
      some (0x1000#16, some 0x000001000#36) ∧
    regAndWord (exec (.setfreq 4157#32) { State.reset with params := otherParams 8 }) =
      some (0x1004#16, some 0x000001004#36) := by decide

/-- The wrap at the top of band 15 (P5). -/
theorem test_dac_wrap : dacCompute 68025472 15 = 1023#10 ∧ dacCompute 68025473 15 = 0#10 := by decide

/-- The DAC column of V3 in the middle of the bands. -/
theorem test_dac_rows : dacCompute 1500 0 = 630#10 ∧ dacCompute 10000 3 = 346#10 ∧ dacCompute 32768 4 = 1009#10 ∧
    dacCompute 44100 5 = 504#10 ∧ dacCompute 1000000 9 = 959#10 ∧ dacCompute 50000000 15 = 654#10 := by decide

/-- The octave column of V3, and the two errors. -/
theorem test_lookup_rows : octaveLookup Config.bands 1038 = .tooLow ∧ octaveLookup Config.bands 1039 = .band 0 ∧
    octaveLookup Config.bands 2077 = .band 0 ∧ octaveLookup Config.bands 2078 = .band 1 ∧
    octaveLookup Config.bands 132991 = .band 6 ∧ octaveLookup Config.bands 68030000 = .band 15 ∧
    octaveLookup Config.bands 68030001 = .tooHigh := by decide

theorem test_getfreq : regAndWord (exec .getfreq State.reset) = some (0#16, some 0x00000040F#36) := by decide
theorem test_getfreq_stale : regAndWord (exec .getfreq { State.reset with reg := 0xABCD#16, freq := 108000#32 }) =
    some (0xABCD#16, some 0x00001A5E0#36) := by decide

/-! ### Device session (V2, V4, V5, V6) -/

theorem test_setconf : regAndWord (exec (.setconf .both) (withReg 0x6C50#16)) = some (0x6C51#16, some 0#36) := by decide
theorem test_setconf_neg : regAndWord (exec (.setconf .neg) (withReg 0x6C53#16)) = some (0x6C50#16, some 0#36) := by decide

/-- S1, and V4's first row. -/
theorem test_wrout : (after (exec .wrout (answered 0x1234#16 0#16 [some (.ok ())] []))).map
      (fun s => (s.devreg, s.activity, s.responses.map Response.word)) =
    some (0x1234#16, [.busWrite 0x17#7 0x12#8 0x34#8 (some (.ok ()))], [0x000000000#36]) := by decide

/-- V4: a failed write is not rolled back; DEVREG is free, so it is not looked at. -/
theorem test_wrout_failed : regAndWord (exec .wrout (answered 0x9EFC#16 0#16 [some (.err 5#32)] [])) =
    some (0x9EFC#16, some 0x300000005#36) := by decide

/-- S2. -/
theorem test_refresh : regAndWord (exec .refresh (answered 0#16 0xABCD#16 [some (.ok ())] [])) =
    some (0xABCD#16, some 0x000000000#36) := by decide
theorem test_refresh_failed : regAndWord (exec .refresh (answered 0x6C51#16 0xFFFF#16 [some (.err 7#32)] [])) =
    some (0x6C51#16, some 0x300000007#36) := by decide
/-- R7, R133: an error type of 8 bits, zero-extended. -/
theorem test_error_width : regAndWord (exec .refresh
    { answered 1#16 2#16 [some (.err 0xAB#32)] [] with params := otherParams 8 }) =
      some (1#16, some 0x3000000AB#36) := by decide
theorem test_oen : (after (exec .oen (answered 0#16 0#16 [] [some (.ok ())]))).map
    (fun s => (s.line, s.reg)) = some (.high, 0#16) := by decide
theorem test_oen_failed : regAndWord (exec .oen (answered 0#16 0#16 [] [some (.err 9#32)])) =
    some (0#16, some 0x400000009#36) := by decide
theorem test_odis : (after (exec .odis { answered 0#16 0#16 [] [some (.ok ())] with line := .high })).map
    (fun s => s.line) = some .low := by decide
theorem test_odis_failed : regAndWord (exec .odis (answered 0#16 0#16 [] [some (.err 9#32)])) =
    some (0#16, some 0x400000009#36) := by decide
theorem test_free : (after (exec .free (withReg 0x0FFE#16))).map (fun s => (s.rel, s.busOwn, s.reg)) =
    some (true, false, 0x0FFE#16) := by decide
theorem test_free_released : regAndWord (exec .free { State.reset with rel := true }) =
    some (0#16, some 0x600000000#36) := by decide

/-! ### Steps -/

/-- V6: ILLEGAL before RELEASED, and RELEASED before TOO_LOW. -/
theorem test_step_illegal : regAndWord (step { presented [0xF00000000#36] with rel := true }) =
    some (0#16, some 0x500000000#36) := by decide
theorem test_step_released : regAndWord (step { presented [0x700000000#36] with rel := true }) =
    some (0#16, some 0x600000000#36) := by decide

/-- V7. -/
theorem test_step_reset : (after (step { { withReg 5#16 with freq := 7#32, rel := true } with
      devreg := 9#16, inputs := [.reset true] })).map (fun s => (s.reg, s.freq, s.addr, s.rel, s.devreg)) =
    some (0x0000#16, 1039#32, 0x16#7, false, 9#16) := by decide
theorem test_reset_is_one_of_them : State.resetWith Config.params false 0x0000#16 .low = State.reset := by decide
theorem test_step_hangs : (after (exec .wrout (answered 1#16 0#16 [none] []))).map
    (fun s => (s.hung, s.responses, s.reg)) = some (true, [], 1#16) := by decide

/-- Every command runs as the first step after reset, with nothing else placed, also where no answer is listed. -/
theorem test_first_step_runs : [0x100000006, 0x200000000, 0x300000314, 0x400000000, 0x500000001, 0x600000000,
      0x70001A5E0, 0x800000000, 0x900000001, 0xA00000000, 0xB00000000, 0xC00000000, 0xD00000000, 0xE00000000].all
    (fun w => (after (step (State.reset.withFetchWord 40 w))).isSome) = true := by decide

/-! ### Witnesses: states and operands that meet the hypotheses of each statement that has some -/

theorem witness_StepRunsTheDecodedCommand : (presented [0x200000000#36]).hung = false ∧
    (presented [0x200000000#36]).inputs = .command 0x200000000#36 :: [] ∧
    decode 0x200000000#36 = .command .getoct := by decide

/-- R55 and R56 in turn: op 0x0, op 0xF, and the smallest argument out of range. -/
theorem witness_ReservedWordIsAnsweredIllegal :
    (∀ w, (presented [w]).hung = false ∧ (presented [w]).inputs = .command w :: []) ∧
    [0x000000000#36, 0xF00000000#36, 0x100000010#36, 0xA00000001#36].all reservedWord = true :=
  ⟨fun _ => ⟨rfl, rfl⟩, by decide⟩

theorem witness_ReleasedCommandHasNoEffect : ({ State.reset with rel := true } : State).rel = true := by decide

/-- Each clause: a reserved word, a legal word with REL = 1, a legal word with REL = 0 and each own status. -/
theorem witness_ChecksAreMadeInTheFixedOrder :
    reservedWord 0x100000010#36 = true ∧
    (decode 0x700000000#36 = .command (.setfreq 0#32) ∧
      ({ presented [0x700000000#36] with rel := true } : State).rel = true) ∧
    (presented [0x70000040E#36]).params.wellFormed = true ∧
    (presented [0x70000040E#36]).rel = false ∧ decode 0x70000040E#36 = .command (.setfreq 1038#32) ∧
    ownStatus (.setfreq 1038#32) (presented [0x70000040E#36]) = some .tooLow ∧
    ownStatus (.setfreq 1039#32) (presented [0x70000040F#36]) = some .ok ∧
    ownStatus (.setfreq 68030000#32) (presented [0x7040E0E30#36]) = some .ok ∧
    ownStatus (.setfreq 68030001#32) (presented [0x7040E0E31#36]) = some .tooHigh ∧
    ownStatus .wrout { presented [0xA00000000#36] with busAnswers := [some (.err 1#32)] } = some .busError ∧
    ownStatus .oen { presented [0xC00000000#36] with lineAnswers := [some (.err 1#32)] } = some .lineError := by decide

/-- Setters, getters, SETCONF, GETFREQ, SETFREQ read-back, FREE: REL = 0. -/
theorem witness_owned : State.reset.rel = false := by decide

theorem witness_SetconfWritesTheVariantNumber : (withReg 0x6C53#16).rel = false ∧
    (withReg 0x6C53#16).reg.extractLsb' 0 2 = OutputConf.off.number := by decide

/-- The boundary values of each field, and two different fields. -/
theorem witness_FieldOperationsAreIndependent : (15#16).toNat < 2 ^ Field.oct.width ∧
    (1023#16).toNat < 2 ^ Field.dac.width ∧ (3#16).toNat < 2 ^ Field.cnf.width ∧ Field.oct ≠ Field.dac ∧
    State.reset.rel = false ∧ Instr.getdac ∈ [Instr.setoct 0#4, .getoct, .setdac 0#10, .getdac, .setcnf 0#2, .getcnf,
      .setconf .neg] := by decide

/-- One table, and for each clause the frequency at its edge; with two bands before the one found. -/
theorem witness_LookupFindsTheFirstBandOfEveryTable : bandsWellFormed Config.bands = true ∧ 1038 < 1039 ∧
    68030000 < 68030001 ∧ (1039 ≤ 1039 ∧ 1039 ≤ 68030000) ∧ (1039 ≤ 68030000 ∧ 68030000 ≤ 68030000) := by decide

theorem witness_DefaultTableLookupIsTheLogarithm : 14 < 15 ∧ 15 < 16 ∧ (1039 ≤ 68030000 ∧ 68030000 ≤ 68030000) := by
  decide

/-- The clauses of SETFREQ exclude each other: 1038, 68 030 001, and both ends of the first and the last band. -/
theorem witness_SetfreqEncodesTheFrequency :
    (State.reset.params.wellFormed = true ∧ (otherParams 8).wellFormed = true) ∧ State.reset.rel = false ∧ (1038#32).toNat < 1039 ∧
    68030000 < (68030001#32).toNat ∧
    (State.reset.params.bands[0]? = some ⟨1039, 2077⟩ ∧ 1039 ≤ (1039#32).toNat ∧ (2077#32).toNat ≤ 2077) ∧
    ((otherParams 8).bands[1]? = some ⟨2077, 4160⟩ ∧ (otherParams 8).bands[2]? = some ⟨4156, 8311⟩ ∧
      ∀ j c, j < 1 → (otherParams 8).bands[j]? = some c → ¬ (c.lo ≤ (4157#32).toNat ∧ (4157#32).toNat ≤ c.hi)) ∧
    (State.reset.params.bands[15]? = some ⟨34045952, 68030000⟩ ∧ 34045952 ≤ (68030000#32).toNat ∧
      (68030000#32).toNat ≤ 68030000) :=
  ⟨by decide, by decide, by decide, by decide, by decide, ⟨rfl, rfl, fun j c hj hc => by
    obtain rfl : j = 0 := by omega
    cases hc; decide⟩, by decide⟩

theorem witness_SetfreqReadsBackAndFailsCleanly : State.reset.params.wellFormed = true ∧ State.reset.rel = false ∧
    (1039 ≤ (1039#32).toNat ∧ (1039#32).toNat ≤ 68030000) ∧ (0#32).toNat < 1039 ∧
    68030000 < (0xFFFFFFFF#32).toNat := by decide

/-- f at the band's lower end, at T_0, and just above it. -/
theorem witness_DacWrapsExactlyAtTheTopOfEachBand : Config.bands[0]? = some ⟨1039, 2077⟩ ∧
    (1039 ≤ 1039 ∧ 1039 ≤ 2077) ∧ 2075 ≤ (2078 <<< (10 + 0)) / 1025 ∧ (2078 <<< (10 + 0)) / 1025 < 2076 := by decide

theorem witness_ExactDacIsTheLeastAtOrAboveTheRequest : 0 < 1039 := by decide

theorem witness_WroutStoresTheRegister :
    (answered 0x1234#16 0#16 [some (.ok ())] []).rel = false ∧
    (answered 0x1234#16 0#16 [some (.ok ())] []).nextBusAnswer = some (.ok ()) ∧
    (answered 0x1234#16 0#16 [some (.err 5#32)] []).nextBusAnswer = some (.err 5#32) := by decide

theorem witness_RefreshLoadsTheRegister :
    (answered 0#16 0xABCD#16 [some (.ok ())] []).rel = false ∧
    (answered 0#16 0xABCD#16 [some (.ok ())] []).nextBusAnswer = some (.ok ()) ∧
    (answered 0#16 0xABCD#16 [some (.err 7#32)] []).nextBusAnswer = some (.err 7#32) := by decide

theorem witness_OenAndOdisDriveTheLine :
    (answered 0#16 0#16 [] [some (.ok ())]).rel = false ∧
    ((Instr.oen, Level.high) ∈ [(Instr.oen, Level.high), (.odis, .low)] ∧
      (Instr.odis, Level.low) ∈ [(Instr.oen, Level.high), (.odis, .low)]) ∧
    (answered 0#16 0#16 [] [some (.ok ())]).nextLineAnswer = some (.ok ()) ∧
    (answered 0#16 0#16 [] [some (.err 9#32)]).nextLineAnswer = some (.err 9#32) := by decide

theorem witness_HostResetGivesTheResetValues : ∀ a ∈ [false, true],
    ({ State.reset with inputs := [.reset a] } : State).hung = false ∧
    ({ State.reset with inputs := [.reset a] } : State).inputs = .reset a :: [] := by decide

theorem witness_HostResetEndsAHungCommand :
    ({ State.reset with hung := true, inputs := [.reset true] } : State).hung = true ∧
    ({ State.reset with hung := true, inputs := [.reset true] } : State).inputs = .reset true :: [] := by decide

theorem witness_NoCommandIsAcceptedDuringACommand :
    ({ presented [0x200000000#36] with hung := true } : State).hung = true ∧
    ({ presented [0x200000000#36] with hung := true } : State).inputs = .command 0x200000000#36 :: [] := by decide

theorem witness_OtherMasterWritesTheDeviceOnly :
    ({ State.reset with inputs := [.otherMaster 5#16] } : State).inputs = .otherMaster 5#16 :: [] ∧
    State.reset.inputs = [] := by decide

theorem witness_UnansweredOperationHangsTheCommand :
    (answered 1#16 0#16 [none] [none]).rel = false ∧
    (∀ i ∈ [Instr.wrout, .refresh, .oen, .odis], ownStatus i (answered 1#16 0#16 [none] [none]) = none) ∧
    writesDevreg Instr.oen.mnemonic = false ∧ writesLine Instr.wrout.mnemonic = false := by decide

theorem witness_OnlyResetEndsAHang :
    ({ State.reset with hung := true, inputs := [.otherMaster 5#16] } : State).hung = true ∧
    ({ State.reset with hung := true, inputs := [.otherMaster 5#16] } : State).inputs.all Input.notReset = true ∧
    core.run 2 { State.reset with hung := true, inputs := [.otherMaster 5#16] } =
      .next { State.reset with hung := true, devreg := 5#16 } :=
  ⟨by decide, by decide, rfl⟩

theorem witness_StepKeepsSafe : State.reset.Safe ∧ step State.reset = .next State.reset :=
  ⟨⟨by decide, by decide, by decide, by decide, by decide, by decide⟩, rfl⟩

theorem witness_ResetStateIsSafe : Config.params.wellFormed = true ∧ (otherParams 0).wellFormed = true := by decide

theorem witness_ParametersNeverChange : (after (step (presented [0x70001A5E0#36]))).isSome = true := by decide

/-- Both clauses at the largest value of 8 bits. -/
theorem witness_ErrorDataFitsTheErrorWidth : State.reset.rel = false ∧
    ({ answered 1#16 2#16 [some (.err 255#32)] [] with params := otherParams 8 } : State).busAnswers =
      some (.err 255#32) :: [] ∧
    ({ answered 1#16 2#16 [] [some (.err 255#32)] with params := otherParams 8 } : State).lineAnswers =
      some (.err 255#32) :: [] ∧
    (255#32).toNat < 2 ^ (otherParams 8).busErrWidth ∧ (255#32).toNat < 2 ^ (otherParams 8).lineErrWidth := by decide

theorem witness_CommandsWriteWithinTheirRow : writesReg .wrout = false ∧ writesFreq .refresh = false ∧
    writesRel .wrout = false ∧ writesDevreg .refresh = false ∧ writesLine .wrout = false := by decide

theorem witness_EnvironmentIsReadByRefreshOnly : readsDevreg Instr.wrout.mnemonic = false := by decide

theorem witness_CommandsAnswerWithinTheirRow : Status.busError ∈ mayAnswer .wrout ∧ reservedWord 0xF00000000#36 = true ∧
    (presented [0xF00000000#36]).hung = false ∧ (after (step (presented [0xF00000000#36]))).isSome = true := by decide

theorem witness_EachCommandPerformsAtMostOneOperation : ({ State.reset with rel := true } : State).rel = true ∧
    actsOutside Instr.free.mnemonic = false ∧ State.reset.rel = false := by decide

theorem witness_FreqChangesBySetfreqOrResetOnly :
    (presented [0x70001A5E0#36]).params.wellFormed = true ∧
    ({ State.reset with inputs := [.reset false] } : State).params.wellFormed = true ∧
    (after (step (presented [0x70001A5E0#36]))).isSome = true ∧
    (after (step { State.reset with inputs := [.reset false] })).isSome = true := by decide

theorem witness_OnlyResetEndsARelease :
    ({ presented [0x200000000#36] with rel := true } : State).rel = true ∧
    ({ presented [0x200000000#36] with rel := true } : State).inputs.all Input.notReset = true ∧
    core.run 1 { presented [0x200000000#36] with rel := true } =
      .next { State.reset with rel := true, responses := [⟨.released, 0#32⟩] } :=
  ⟨by decide, by decide, rfl⟩

theorem witness_RefreshAfterWroutReturnsTheValueWritten : ∃ t u,
    exec .wrout { answered 0x6C51#16 0#16 [some (.ok ()), some (.ok ())] [] with inputs := [.command 0x50000000F#36] } =
      .next t ∧
    t.inputs.all Input.leavesDevice = true ∧ core.run 1 t = .next u ∧ u.rel = false ∧
    u.nextBusAnswer = some (.ok ()) ∧
    (answered 0x6C51#16 0#16 [some (.ok ()), some (.ok ())] []).nextBusAnswer = some (.ok ()) :=
  ⟨_, _, rfl, by decide, rfl, rfl, rfl, rfl⟩

theorem witness_EncodeOfDecodeIsTheWord : decode 0x100000006#36 = .command (.setoct 6#4) := by decide

theorem witness_MaskAndMatchSelectTheCommand :
    0x100000006#36 &&& Mnemonic.setoct.mask = Mnemonic.setoct.pattern ∧
    [Mnemonic.setoct, .getoct, .setdac, .getdac, .setcnf, .getcnf, .setfreq, .getfreq, .setconf, .wrout, .refresh, .oen,
      .odis, .free].all (fun m => 0x100000010#36 &&& m.mask != m.pattern) = true := by decide

theorem witness_AssemblerTakesExactlyTheWellFormedLines : AsmLine.wellFormed ⟨.setoct, some (.number 16)⟩ = false ∧
    AsmLine.wellFormed ⟨.setoct, some (.number 15)⟩ = true := by decide

theorem witness_SetconfSymbolsAreTheirNumbers : Mnemonic.setcnf ≠ .setconf := by decide

theorem witness_PresentedWordIsTheCommandRun : 36 ≤ 40 := by decide

end Sys2Proof.Tests
end

section
/-!
PROOFS. What the parameters guarantee: the bands of every table of 41_frequency_encoder.md rule R91 lie in [F_MIN, F_MAX],
so that a frequency that lookup finds a band for is a supported one.
-/

namespace Sys2Proof.Machine

/-- R91(d): both ends of the bands increase along a chained table. -/
theorem bandsChained_isChain (t : List Band) (h : bandsChained t = true) :
    (t.map Band.lo).IsChain (· ≤ ·) ∧ (t.map Band.hi).IsChain (· ≤ ·) := by
  induction t using bandsChained.induct with
  | case1 => simp
  | case2 b => simp
  | case3 b c rest ih =>
    simp only [bandsChained, Band.follows, Bool.and_eq_true, decide_eq_true_eq] at h
    obtain ⟨⟨⟨hlo, hhi⟩, -⟩, hrest⟩ := h
    obtain ⟨ihlo, ihhi⟩ := ih hrest
    exact ⟨.cons_cons hlo.le ihlo, .cons_cons hhi.le ihhi⟩

/-- The first element of an increasing list is its least. -/
theorem le_of_isChain_head? {l : List Nat} {m : Nat} (h : l.IsChain (· ≤ ·)) (hm : l.head? = some m) :
    ∀ n ∈ l, m ≤ n := by
  obtain ⟨ys, rfl⟩ := List.head?_eq_some_iff.1 hm
  exact fun n hn => List.isChain_iff_pairwise.1 h |>.rel_head hn

/-- The last element of an increasing list is its greatest. -/
theorem le_of_isChain_getLast? {l : List Nat} {m : Nat} (h : l.IsChain (· ≤ ·)) (hm : l.getLast? = some m) :
    ∀ n ∈ l, n ≤ m := by
  obtain ⟨ys, rfl⟩ := List.getLast?_eq_some_iff.1 hm
  exact fun n hn => by simpa using (List.isChain_iff_pairwise.1 h).rel_getLast hn

/-- R91(a), (b), (d): no band of an allowed table reaches outside [F_MIN, F_MAX]. -/
theorem bands_within_range {t : List Band} (h : bandsWellFormed t = true) :
    ∀ b ∈ t, 1039 ≤ b.lo ∧ b.hi ≤ 68030000 := by
  simp only [bandsWellFormed, bandsEnds, Bool.and_eq_true, beq_iff_eq] at h
  obtain ⟨⟨⟨-, hfirst, hlast⟩, -⟩, hchain⟩ := h
  obtain ⟨hlo, hhi⟩ := bandsChained_isChain t hchain
  intro b hb
  exact ⟨le_of_isChain_head? hlo (by rw [List.head?_map, hfirst]; rfl) _ (List.mem_map_of_mem hb),
    le_of_isChain_getLast? hhi (by rw [List.getLast?_map, hlast]; rfl) _ (List.mem_map_of_mem hb)⟩

/-- R93, R94: lookup answers a band for supported frequencies only. -/
theorem range_of_octaveLookup_band {t : List Band} {f i : Nat} (h : bandsWellFormed t = true)
    (hi : octaveLookup t f = .band i) : 1039 ≤ f ∧ f ≤ 68030000 := by
  rcases octaveLookup_cases t f with ⟨j, b, -, hb, hlo, hhi, -⟩ | ⟨-, hnone⟩
  · have hrange := bands_within_range h b (List.mem_of_getElem? hb)
    omega
  · rw [hi] at hnone
    split at hnone <;> cases hnone

theorem Params.bands_wellFormed {p : Params} (h : p.wellFormed = true) : bandsWellFormed p.bands = true := by
  simp only [Params.wellFormed, Bool.and_eq_true] at h
  exact h.1

end Sys2Proof.Machine
end

section
/-!
PROOFS. The invariant State.Safe is kept by every step: first by the updates of State, then by the shared operations, then
by each command and each other move.
-/

namespace Sys2Proof.Machine

/-- The invariant looks at five fields only: a state that agrees with a safe one on them is safe. -/
theorem State.Safe.of_frame {s t : State} (hs : s.Safe) (hparams : t.params = s.params) (haddr : t.addr = s.addr)
    (hfreq : t.freq = s.freq) (hactivity : t.activity = s.activity) (hhung : t.hung = s.hung) : t.Safe where
  params := hparams ▸ hs.params
  addr := haddr ▸ hs.addr
  freqLow := hfreq ▸ hs.freqLow
  freqHigh := hfreq ▸ hs.freqHigh
  bus := hactivity ▸ hs.bus
  waiting := by rw [hactivity, hhung]; exact hs.waiting

theorem State.Safe.respond {s : State} (hs : s.Safe) (st : Status) (d : Word) : (s.respond st d).Safe :=
  hs.of_frame rfl rfl rfl rfl rfl

theorem State.Safe.raise {s : State} (hs : s.Safe) (st : Status) (d : Word) : (s.raise st d).Safe :=
  hs.respond st d

theorem State.Safe.setReg {s : State} (hs : s.Safe) (v : Half) : (s.setReg v).Safe :=
  hs.of_frame rfl rfl rfl rfl rfl

theorem State.Safe.setRel {s : State} (hs : s.Safe) (r : Bool) : (s.setRel r).Safe :=
  hs.of_frame rfl rfl rfl rfl rfl

theorem State.Safe.setDevreg {s : State} (hs : s.Safe) (v : Half) : (s.setDevreg v).Safe :=
  hs.of_frame rfl rfl rfl rfl rfl

theorem State.Safe.setInputs {s : State} (hs : s.Safe) (l : List Input) : (s.setInputs l).Safe :=
  hs.of_frame rfl rfl rfl rfl rfl

/-- R12: FREQ may be given any supported frequency. -/
theorem State.Safe.setFreq {s : State} (hs : s.Safe) {f : Word} (hf : 1039 ≤ f.toNat ∧ f.toNat ≤ 68030000) :
    (s.setFreq f).Safe where
  params := hs.params
  addr := hs.addr
  freqLow := hf.1
  freqHigh := hf.2
  bus := hs.bus
  waiting := hs.waiting

/-- R146: a command may be left in progress when its operation, the newest of the record, was not answered. -/
theorem State.Safe.setHung_true {s : State} (hs : s.Safe) (h : s.activity.head?.any EnvEvent.unanswered = true) :
    (s.setHung true).Safe where
  params := hs.params
  addr := hs.addr
  freqLow := hs.freqLow
  freqHigh := hs.freqHigh
  bus := hs.bus
  waiting _ := h

/-- R32: with no command in progress an operation to a legal address may be added to the record. -/
theorem State.Safe.record {s : State} (hs : s.Safe) (hh : s.hung = false) {e : EnvEvent}
    (he : e.addrLegal = true) : (s.record e).Safe where
  params := hs.params
  addr := hs.addr
  freqLow := hs.freqLow
  freqHigh := hs.freqHigh
  bus := by simp [he, hs.bus]
  waiting h := by simp [hh] at h

/-- How a command with one environment operation ends keeps the invariant: its effect does, and it is left in progress
only where the operation was not answered. -/
theorem settle_safe {α : Type} (error : Status) (onOk : α → State → State) (a : Option (Answer Word α)) (s : State)
    (hs : s.Safe) (hok : ∀ x, (onOk x s).Safe)
    (hnone : a = none → s.activity.head?.any EnvEvent.unanswered = true) : (settle error onOk (a, s)).Safe := by
  match a with
  | some (.ok x) => exact (hok x).respond .ok 0#32
  | some (.err e) => exact hs.raise error e
  | none => exact hs.setHung_true (hnone rfl)

theorem busWrite_safe {s : State} (hs : s.Safe) (hh : s.hung = false) (b0 b1 : Byte) :
    (busWrite s.addr b0 b1 s).2.Safe :=
  (hs.record hh (e := .busWrite s.addr b0 b1 s.nextBusAnswer) hs.addr).of_frame rfl rfl rfl rfl rfl

theorem busRead_safe {s : State} (hs : s.Safe) (hh : s.hung = false) : (busRead s.addr s).2.Safe :=
  (hs.record hh (e := .busRead s.addr s.readAnswer) hs.addr).of_frame rfl rfl rfl rfl rfl

theorem lineSet_safe {s : State} (hs : s.Safe) (hh : s.hung = false) (l : Level) : (lineSet l s).2.Safe :=
  (hs.record hh (e := .lineSet l s.nextLineAnswer) rfl).of_frame rfl rfl rfl rfl rfl

/-- The newest operation of the record after a BusWrite is unanswered when the BusWrite was. -/
theorem busWrite_unanswered (a : BusAddr) (b0 b1 : Byte) (s : State) (h : (busWrite a b0 b1 s).1 = none) :
    (busWrite a b0 b1 s).2.activity.head?.any EnvEvent.unanswered = true :=
  Option.isNone_iff_eq_none.2 h

/-- The newest operation of the record after a BusRead is unanswered when the BusRead was. -/
theorem busRead_unanswered (a : BusAddr) (s : State) (h : (busRead a s).1 = none) :
    (busRead a s).2.activity.head?.any EnvEvent.unanswered = true :=
  Option.isNone_iff_eq_none.2 h

/-- The newest operation of the record after a LineSet is unanswered when the LineSet was. -/
theorem lineSet_unanswered (l : Level) (s : State) (h : (lineSet l s).1 = none) :
    (lineSet l s).2.activity.head?.any EnvEvent.unanswered = true :=
  Option.isNone_iff_eq_none.2 h

theorem setFieldCommand_safe {s : State} (hs : s.Safe) (F : Field) (v : Half) : (setFieldCommand F v s).Safe :=
  (hs.setReg _).respond _ _

theorem getFieldCommand_safe {s : State} (hs : s.Safe) (F : Field) : (getFieldCommand F s).Safe :=
  hs.respond _ _

/-- R99, R131, R132: SETFREQ caches a frequency only after lookup has found its band. -/
theorem setFreqCommand_safe {s : State} (hs : s.Safe) (f : Word) : (setFreqCommand f s).Safe := by
  unfold setFreqCommand
  split
  · exact hs.raise _ _
  · exact hs.raise _ _
  · next oct hoct =>
    exact ((hs.setReg _).setFreq (range_of_octaveLookup_band (Params.bands_wellFormed hs.params) hoct)).respond _ _

theorem lineCommand_safe {s : State} (hs : s.Safe) (hh : s.hung = false) (l : Level) :
    (settle .lineError (fun _ t => t) (lineSet l s)).Safe :=
  settle_safe _ _ _ _ (lineSet_safe hs hh l) (fun _ => lineSet_safe hs hh l) (lineSet_unanswered l s)

/-- Every command's own effect keeps the invariant when no command is in progress before it. -/
theorem effect_safe (i : Instr) {s : State} (hs : s.Safe) (hh : s.hung = false) : (effect i s).Safe := by
  cases i with
  | setoct v => exact setFieldCommand_safe hs _ _
  | getoct => exact getFieldCommand_safe hs _
  | setdac v => exact setFieldCommand_safe hs _ _
  | getdac => exact getFieldCommand_safe hs _
  | setcnf v => exact setFieldCommand_safe hs _ _
  | getcnf => exact getFieldCommand_safe hs _
  | setfreq f => exact setFreqCommand_safe hs f
  | getfreq => exact hs.respond _ _
  | setconf c => exact setFieldCommand_safe hs _ _
  | wrout =>
    have hw := busWrite_safe hs hh (firstByte s.reg) (secondByte s.reg)
    exact settle_safe _ _ _ _ hw (fun _ => hw) (busWrite_unanswered _ _ _ _)
  | refresh =>
    have hr := busRead_safe hs hh
    exact settle_safe _ _ _ _ hr (fun _ => hr.setReg _) (busRead_unanswered _ _)
  | oen => exact lineCommand_safe hs hh .high
  | odis => exact lineCommand_safe hs hh .low
  | free => exact (hs.setRel true).respond _ _

/-- A command, released or not, keeps the invariant when no command is in progress before it. -/
theorem exec_safe {i : Instr} {s t : State} (hs : s.Safe) (hh : s.hung = false) (h : exec i s = .next t) :
    t.Safe := by
  cases hrel : s.rel with
  | false => cases (exec_owned i s hrel).symm.trans h; exact effect_safe i hs hh
  | true => cases (exec_released i s hrel).symm.trans h; exact hs.raise _ _

/-- R17: either strap selects one of the two addresses. -/
theorem legalAddr_strapAddr (adrSel : Bool) : legalAddr (strapAddr adrSel) = true := by
  cases adrSel <;> decide

/-- R24, R146: a reset sets ADDR and FREQ to legal values and leaves no command in progress. -/
theorem hostReset_safe {s : State} (hs : s.Safe) (adrSel : Bool) : (hostReset adrSel s).Safe := by
  obtain ⟨l, ⟨hh, heq⟩ | ⟨-, d, heq⟩⟩ := hostReset_cases adrSel s
  · rw [heq]
    exact ⟨hs.params, legalAddr_strapAddr adrSel, by simp, by simp, hs.bus, by simp [hh]⟩
  · rw [heq]
    exact ⟨hs.params, legalAddr_strapAddr adrSel, by simp, by simp, hs.bus, by simp⟩

/-- Settles O36, by the moves step can make: a command keeps the invariant by its shared operations, and SETFREQ because
every band of an allowed table lies in the supported range. -/
theorem stepKeepsSafe : Obligations.StepKeepsSafe := by
  intro s t hs h
  rcases step_cases s t h with ⟨-, rfl⟩ | ⟨w, rest, i, -, hh, -, hexec⟩ | ⟨w, rest, r, -, -, -, rfl⟩ |
    ⟨adrSel, rest, -, rfl⟩ | ⟨v, rest, -, rfl⟩
  · exact hs
  · exact exec_safe (hs.setInputs rest) hh hexec
  · exact (hs.setInputs rest).raise _ _
  · exact hostReset_safe (hs.setInputs rest) adrSel
  · exact (hs.setInputs rest).setDevreg v

end Sys2Proof.Machine
end

section
/-!
PROOFS. The data of an error response: what a command can add to the responses, and that an error carries the
environment's value at its width (60_exceptions.md rules R133, R134).
-/

namespace Sys2Proof.Machine

/-- A response that is a BUS_ERROR or a LINE_ERROR has data of the width the parameters give that error. -/
def Response.FitsErrorWidth (p : Params) (r : Response) : Prop :=
  (r.status = .busError → r.data.toNat < 2 ^ p.busErrWidth) ∧
    (r.status = .lineError → r.data.toNat < 2 ^ p.lineErrWidth)

/-- What one command in the state s may do to the responses: add one that fits, or add none (R146). -/
def AnswersWithinWidth (s t : State) : Prop :=
  t.responses = s.responses ∨ ∃ r : Response, t.responses = r :: s.responses ∧ r.FitsErrorWidth s.params

/-- A status that carries no error of the environment sets no bound on the data. -/
theorem fitsErrorWidth_of_status {p : Params} {st : Status} (d : Word) (hbus : st ≠ .busError)
    (hline : st ≠ .lineError) : Response.FitsErrorWidth p ⟨st, d⟩ :=
  ⟨fun h => absurd h hbus, fun h => absurd h hline⟩

theorem fitsErrorWidth_busError {p : Params} {e : Word} (h : e.toNat < 2 ^ p.busErrWidth) :
    Response.FitsErrorWidth p ⟨.busError, e⟩ :=
  ⟨fun _ => h, nofun⟩

theorem fitsErrorWidth_lineError {p : Params} {e : Word} (h : e.toNat < 2 ^ p.lineErrWidth) :
    Response.FitsErrorWidth p ⟨.lineError, e⟩ :=
  ⟨nofun, fun _ => h⟩

/-- The newest response of such a command fits. -/
theorem AnswersWithinWidth.newest_fits {s t : State} (h : AnswersWithinWidth s t) {r : Response}
    (hr : t.responses = r :: s.responses) : r.FitsErrorWidth s.params := by
  rcases h with hsame | ⟨r', hnew, hfits⟩
  · exact absurd (hr.symm.trans hsame) (List.cons_ne_self _ _)
  · obtain ⟨rfl, -⟩ := List.cons.inj (hr.symm.trans hnew)
    exact hfits

/-- A command whose last act is a response without an error of the environment. -/
theorem answersWithinWidth_respond {s t : State} {st : Status} (d : Word) (ht : t.responses = s.responses)
    (hbus : st ≠ .busError) (hline : st ≠ .lineError) : AnswersWithinWidth s (t.respond st d) :=
  .inr ⟨⟨st, d⟩, by rw [State.respond_responses, ht], fitsErrorWidth_of_status d hbus hline⟩

/-- A command with one environment operation answers OK, or the operation's error, or nothing. -/
theorem settle_answersWithinWidth {α : Type} {error : Status} {onOk : α → State → State}
    {a : Option (Answer Word α)} {s t : State} (ht : t.responses = s.responses)
    (hok : ∀ x, (onOk x t).responses = s.responses)
    (herr : ∀ e, a = some (.err e) → Response.FitsErrorWidth s.params ⟨error, e⟩) :
    AnswersWithinWidth s (settle error onOk (a, t)) := by
  match a with
  | some (.ok x) => exact answersWithinWidth_respond 0#32 (hok x) nofun nofun
  | some (.err e) => exact .inr ⟨⟨error, e⟩, by rw [settle_err, State.raise_responses, ht], herr e rfl⟩
  | none => exact .inl ht

/-- A read fails exactly with the transport's error. -/
theorem readAnswer_err_iff (s : State) (e : BusErr) :
    s.readAnswer = some (.err e) ↔ s.nextBusAnswer = some (.err e) := by
  refine ⟨fun h => ?_, readAnswer_err s e⟩
  match hn : s.nextBusAnswer with
  | some (.ok ()) => rw [readAnswer_ok s hn] at h; cases h
  | some (.err e') => rw [readAnswer_err s e' hn] at h; cases h; rfl
  | none => rw [readAnswer_none s hn] at h; cases h

theorem setFreqCommand_answersWithinWidth (f : Word) (s : State) :
    AnswersWithinWidth s (setFreqCommand f s) := by
  unfold setFreqCommand
  split <;> exact answersWithinWidth_respond _ rfl nofun nofun

theorem lineCommand_answersWithinWidth (l : Level) (s : State) :
    AnswersWithinWidth s (settle .lineError (fun _ t => t) (lineSet l s)) :=
  settle_answersWithinWidth rfl (fun _ => rfl) fun e he => fitsErrorWidth_lineError (nextLineAnswer_err_lt s e he)

/-- Every command's own effect adds a response that fits, or none. -/
theorem effect_answersWithinWidth (i : Instr) (s : State) : AnswersWithinWidth s (effect i s) := by
  cases i with
  | setfreq f => exact setFreqCommand_answersWithinWidth f s
  | wrout =>
    exact settle_answersWithinWidth rfl (fun _ => rfl) fun e he =>
      fitsErrorWidth_busError (nextBusAnswer_err_lt s e he)
  | refresh =>
    exact settle_answersWithinWidth rfl (fun _ => rfl) fun e he =>
      fitsErrorWidth_busError (nextBusAnswer_err_lt s e ((readAnswer_err_iff s e).1 he))
  | oen => exact lineCommand_answersWithinWidth .high s
  | odis => exact lineCommand_answersWithinWidth .low s
  | setoct | getoct | setdac | getdac | setcnf | getcnf | getfreq | setconf | free =>
    exact answersWithinWidth_respond _ rfl nofun nofun

/-- Every command, released or not, answers a next state with a new response that fits, or none. -/
theorem exec_answersWithinWidth (i : Instr) (s : State) : ∃ t, exec i s = .next t ∧ AnswersWithinWidth s t := by
  cases hrel : s.rel with
  | false => exact ⟨_, exec_owned i s hrel, effect_answersWithinWidth i s⟩
  | true => exact ⟨_, exec_released i s hrel, answersWithinWidth_respond _ rfl nofun nofun⟩

/-- A value of w bits is not cut at the width w; an error value never has more than 32. -/
theorem errorAtWidth_of_lt {w : Nat} {e : Word} (h : e.toNat < 2 ^ w) : errorAtWidth w e = e := by
  apply BitVec.eq_of_toNat_eq
  simp only [errorAtWidth, BitVec.toNat_setWidth, Nat.mod_eq_of_lt h, Nat.mod_eq_of_lt e.isLt]

/-- A listed error of the transport that fits its width is the transport's next answer. -/
theorem nextBusAnswer_listed_err {s : State} {e : BusErr} {rest : List (Option BusAnswer)}
    (h : s.busAnswers = some (.err e) :: rest) (he : e.toNat < 2 ^ s.params.busErrWidth) :
    s.nextBusAnswer = some (.err e) := by
  simp [State.nextBusAnswer, h, errorAtWidth_of_lt he]

/-- A listed error of the line that fits its width is the line's next answer. -/
theorem nextLineAnswer_listed_err {s : State} {e : LineErr} {rest : List (Option LineAnswer)}
    (h : s.lineAnswers = some (.err e) :: rest) (he : e.toNat < 2 ^ s.params.lineErrWidth) :
    s.nextLineAnswer = some (.err e) := by
  simp [State.nextLineAnswer, h, errorAtWidth_of_lt he]

/-- R133: a transaction answered Err(e) ends in (BUS_ERROR, e). -/
theorem effect_responses_of_busErr {i : Instr} (hi : i ∈ [Instr.wrout, .refresh]) {s : State} {e : BusErr}
    (h : s.nextBusAnswer = some (.err e)) : (effect i s).responses = ⟨.busError, e⟩ :: s.responses := by
  obtain rfl | rfl := List.mem_pair.1 hi
  · obtain ⟨d, hw, -⟩ := busWrite_cases s.addr (firstByte s.reg) (secondByte s.reg) s
    simp only [effect, hw, h, settle_err, State.raise_responses]
  · simp only [effect, busRead_eq, readAnswer_err s e h, settle_err, State.raise_responses]

/-- R134: a line operation answered Err(e) ends in (LINE_ERROR, e). -/
theorem effect_responses_of_lineErr {i : Instr} (hi : i ∈ [Instr.oen, .odis]) {s : State} {e : LineErr}
    (h : s.nextLineAnswer = some (.err e)) : (effect i s).responses = ⟨.lineError, e⟩ :: s.responses := by
  have hline (l : Level) : (settle .lineError (fun _ t => t) (lineSet l s)).responses =
      ⟨.lineError, e⟩ :: s.responses := by
    obtain ⟨m, hl, -⟩ := lineSet_cases l s
    simp only [hl, h, settle_err, State.raise_responses]
  obtain rfl | rfl := List.mem_pair.1 hi
  · exact hline .high
  · exact hline .low

/-- Settles O35: the environment's error is cut to its width before the response carries it, and a value that fits is not
changed by the cut. -/
theorem errorDataFitsTheErrorWidth : Obligations.ErrorDataFitsTheErrorWidth := by
  refine ⟨fun i s => ?_, fun s e rest hrel hlist he i hi => ?_, fun s e rest hrel hlist he i hi => ?_⟩
  · obtain ⟨t, ht, hans⟩ := exec_answersWithinWidth i s
    exact ⟨t, ht, fun r hr => hans.newest_fits hr⟩
  · exact ⟨_, exec_owned i s hrel, effect_responses_of_busErr hi (nextBusAnswer_listed_err hlist he)⟩
  · exact ⟨_, exec_owned i s hrel, effect_responses_of_lineErr hi (nextLineAnswer_listed_err hlist he)⟩

end Sys2Proof.Machine
end

section
/-!
PROOFS. What step does for each next move, and what follows for one step: the command that runs (10_state.md R14), the
host's reset (R24), another master's write (R20(d)), and the state after reset.
-/

namespace Sys2Proof.Machine

/-- R14, R173: nothing is presented. -/
theorem step_idle {s : State} (hin : s.inputs = []) : step s = .next s := by
  simp [step, nextMove, hin]

/-- R14, R65: a legal command word is accepted while no command is in progress. -/
theorem step_command {s : State} {w : CmdWord} {rest : List Input} {i : Instr} (hh : s.hung = false)
    (hin : s.inputs = .command w :: rest) (hd : decode w = .command i) : step s = exec i (s.setInputs rest) := by
  simp [step, nextMove, hin, hh, hd]

/-- R24: the host's reset is one step. -/
theorem step_reset {s : State} {adrSel : Bool} {rest : List Input} (hin : s.inputs = .reset adrSel :: rest) :
    step s = .next (hostReset adrSel (s.setInputs rest)) := by
  simp [step, nextMove, hin]

/-- R20(d): another master's write is one step. -/
theorem step_otherMaster {s : State} {v : Half} {rest : List Input} (hin : s.inputs = .otherMaster v :: rest) :
    step s = .next ((s.setInputs rest).setDevreg v) := by
  simp [step, nextMove, hin]

/-- Settles O8. -/
theorem stepRunsTheDecodedCommand : Obligations.StepRunsTheDecodedCommand :=
  fun _ _ _ _ hh hin hd => step_command hh hin hd

/-- Settles O30. -/
theorem otherMasterWritesTheDeviceOnly : Obligations.OtherMasterWritesTheDeviceOnly :=
  ⟨fun _ _ _ hin => step_otherMaster hin, fun _ hin => step_idle hin⟩

/-- Settles O27: with no command in progress only the first case of hostReset_cases is left. -/
theorem hostResetGivesTheResetValues : Obligations.HostResetGivesTheResetValues := by
  refine ⟨by decide, fun s adrSel rest hh hin => ?_⟩
  obtain ⟨l, ⟨-, heq⟩ | ⟨hhung, -⟩⟩ := hostReset_cases adrSel (s.setInputs rest)
  · exact ⟨_, l, step_reset hin, by rw [heq]; rfl, heq⟩
  · exact absurd (hh.symm.trans hhung) nofun

/-- R24: after reset nothing is in progress or on record, and ADDR and FREQ are legal. -/
theorem resetWith_safe {p : Params} (hp : p.wellFormed = true) (adrSel : Bool) (d : Half) (l : Level) :
    (State.resetWith p adrSel d l).Safe where
  params := hp
  addr := legalAddr_strapAddr adrSel
  freqLow := le_refl 1039
  freqHigh := show 1039 ≤ 68030000 by decide
  bus := rfl
  waiting := nofun

/-- Settles O33: State.reset is the state after reset with the default parameters, which R7 and R91 allow. -/
theorem resetStateIsSafe : Obligations.ResetStateIsSafe :=
  ⟨fun _ adrSel d l hp => resetWith_safe hp adrSel d l, reset_eq_resetWith ▸ resetWith_safe (by decide) _ _ _⟩

end Sys2Proof.Machine
end

section
/-!
PROOFS. A released PORE is inert until the next reset (10_state.md R18, 42_device_session.md R122).
-/

namespace Sys2Proof.Machine

/-- What the moves other than a reset may change of a released PORE's state s: the moves to come, which hold no reset,
DEVREG (by another master) and the responses. -/
structure ReleasedFrom (s t : State) : Prop where
  noReset : t.inputs.all Input.notReset = true
  frame : t = { s with inputs := t.inputs, devreg := t.devreg, responses := t.responses }

/-- A command in a released PORE is only answered, and so is a reserved word; another master writes DEVREG. -/
theorem step_releasedFrom {s t : State} (hrel : s.rel = true) (hin : s.inputs.all Input.notReset = true)
    (h : step s = .next t) : ReleasedFrom s t := by
  have hcons {m : Input} {rest : List Input} (hs : s.inputs = m :: rest) :
      m.notReset = true ∧ rest.all Input.notReset = true := by simpa [hs] using hin
  rcases step_cases s t h with ⟨-, rfl⟩ | ⟨w, rest, i, hs, -, -, hexec⟩ | ⟨w, rest, r, hs, -, -, rfl⟩ |
    ⟨adrSel, rest, hs, -⟩ | ⟨v, rest, hs, rfl⟩
  · exact ⟨hin, rfl⟩
  · cases (exec_released i (s.setInputs rest) hrel).symm.trans hexec
    exact ⟨(hcons hs).2, rfl⟩
  · exact ⟨(hcons hs).2, rfl⟩
  · exact absurd (hcons hs).1 nofun
  · exact ⟨(hcons hs).2, rfl⟩

theorem ReleasedFrom.trans {s t u : State} (hst : ReleasedFrom s t) (htu : ReleasedFrom t u) : ReleasedFrom s u :=
  ⟨htu.noReset, by rw [htu.frame, hst.frame]⟩

theorem ReleasedFrom.rel {s t : State} (h : ReleasedFrom s t) : t.rel = s.rel := by rw [h.frame]

/-- Settles O42: every step of a run without a reset keeps ReleasedFrom of the run's first state. -/
theorem onlyResetEndsARelease : Obligations.OnlyResetEndsARelease := by
  intro k s t hrel hin hrun
  have hstep (u v : State) (hu : ReleasedFrom s u) (huv : step u = .next v) : ReleasedFrom s v :=
    hu.trans (step_releasedFrom (hu.rel.trans hrel) hu.noReset huv)
  have hkept : ReleasedFrom s t := run_induction (ReleasedFrom s) hstep k s t ⟨hin, rfl⟩ hrun
  rw [hkept.frame]
  exact ⟨hrel, rfl, rfl, rfl, rfl, rfl⟩

end Sys2Proof.Machine
end

section
/-!
PROOFS. The columns of writes of the access table (10_state.md R26): each update of State stays within a command's row
when the row has a w for it, then each shared operation, then each command; and what that says of the parameters (R25) and
of FREQ (R12) for a whole step.
-/

namespace Sys2Proof.Machine

/-- A command of the mnemonic m may lead from s to t: no state without a w in its row of R26 has changed. -/
structure WritesWithinRow (m : Mnemonic) (s t : State) : Prop where
  addr : t.addr = s.addr
  inputs : t.inputs = s.inputs
  params : t.params = s.params
  reg : writesReg m = false → t.reg = s.reg
  freq : writesFreq m = false → t.freq = s.freq
  rel : writesRel m = false → t.rel = s.rel
  devreg : writesDevreg m = false → t.devreg = s.devreg
  line : writesLine m = false → t.line = s.line

theorem WritesWithinRow.refl (m : Mnemonic) (s : State) : WritesWithinRow m s s where
  addr := rfl
  inputs := rfl
  params := rfl
  reg _ := rfl
  freq _ := rfl
  rel _ := rfl
  devreg _ := rfl
  line _ := rfl

section
variable {m : Mnemonic} {s t : State} (h : WritesWithinRow m s t)
include h

theorem WritesWithinRow.respond (st : Status) (d : Word) : WritesWithinRow m s (t.respond st d) := { h with }

theorem WritesWithinRow.setHung (b : Bool) : WritesWithinRow m s (t.setHung b) := { h with }

theorem WritesWithinRow.record (e : EnvEvent) : WritesWithinRow m s (t.record e) := { h with }

theorem WritesWithinRow.useBusAnswer : WritesWithinRow m s t.useBusAnswer := { h with }

theorem WritesWithinRow.useLineAnswer : WritesWithinRow m s t.useLineAnswer := { h with }

theorem WritesWithinRow.draw : WritesWithinRow m s t.draw := { h with }

theorem WritesWithinRow.setReg (hm : writesReg m = true) (v : Half) : WritesWithinRow m s (t.setReg v) :=
  { h with reg := fun hno => absurd (hno.symm.trans hm) nofun }

theorem WritesWithinRow.setFreq (hm : writesFreq m = true) (f : Word) : WritesWithinRow m s (t.setFreq f) :=
  { h with freq := fun hno => absurd (hno.symm.trans hm) nofun }

theorem WritesWithinRow.setRel (hm : writesRel m = true) (r : Bool) : WritesWithinRow m s (t.setRel r) :=
  { h with rel := fun hno => absurd (hno.symm.trans hm) nofun }

theorem WritesWithinRow.setDevreg (hm : writesDevreg m = true) (v : Half) : WritesWithinRow m s (t.setDevreg v) :=
  { h with devreg := fun hno => absurd (hno.symm.trans hm) nofun }

theorem WritesWithinRow.setLine (hm : writesLine m = true) (l : Level) : WritesWithinRow m s (t.setLine l) :=
  { h with line := fun hno => absurd (hno.symm.trans hm) nofun }

/-- The ways settle ends a command add a response or leave it in progress. -/
theorem WritesWithinRow.settle {α : Type} (error : Status) (onOk : α → State → State) (a : Option (Answer Word α))
    (hok : ∀ x, WritesWithinRow m s (onOk x t)) : WritesWithinRow m s (settle error onOk (a, t)) := by
  match a with
  | some (.ok x) => exact (hok x).respond .ok 0#32
  | some (.err e) => exact h.respond error e
  | none => exact h.setHung true

end

theorem busWrite_writesWithinRow {m : Mnemonic} (hm : writesDevreg m = true) (a : BusAddr) (b0 b1 : Byte) (s : State) :
    WritesWithinRow m s (busWrite a b0 b1 s).2 :=
  ((((WritesWithinRow.refl m s).setDevreg hm _).record _).useBusAnswer).draw

theorem busRead_writesWithinRow (m : Mnemonic) (a : BusAddr) (s : State) : WritesWithinRow m s (busRead a s).2 :=
  (((WritesWithinRow.refl m s).record _).useBusAnswer).draw

theorem lineSet_writesWithinRow {m : Mnemonic} (hm : writesLine m = true) (l : Level) (s : State) :
    WritesWithinRow m s (lineSet l s).2 :=
  ((((WritesWithinRow.refl m s).setLine hm _).record _).useLineAnswer).draw

theorem setFieldCommand_writesWithinRow {m : Mnemonic} (hm : writesReg m = true) (F : Field) (v : Half) (s : State) :
    WritesWithinRow m s (setFieldCommand F v s) :=
  ((WritesWithinRow.refl m s).setReg hm _).respond _ _

/-- What SETFREQ can do: answer an error, or, for a frequency in a band, cache it, pack REG and answer OK. -/
theorem setFreqCommand_cases (f : Word) (s : State) :
    (∃ st, setFreqCommand f s = s.raise st 0#32) ∨
    (∃ oct t, octaveLookup s.params.bands f.toNat = .band oct ∧
      setFreqCommand f s = ((s.setReg t).setFreq f).respond .ok (t.setWidth 32)) := by
  unfold setFreqCommand
  split
  · exact .inl ⟨_, rfl⟩
  · exact .inl ⟨_, rfl⟩
  · next oct hoct => exact .inr ⟨oct, _, hoct, rfl⟩

theorem setFreqCommand_writesWithinRow (f : Word) (s : State) : WritesWithinRow .setfreq s (setFreqCommand f s) := by
  rcases setFreqCommand_cases f s with ⟨st, heq⟩ | ⟨oct, t, -, heq⟩ <;> rw [heq]
  · exact (WritesWithinRow.refl _ s).respond st 0#32
  · exact (((WritesWithinRow.refl _ s).setReg rfl t).setFreq rfl f).respond _ _

theorem lineCommand_writesWithinRow {m : Mnemonic} (hm : writesLine m = true) (l : Level) (s : State) :
    WritesWithinRow m s (settle .lineError (fun _ t => t) (lineSet l s)) :=
  have hl := lineSet_writesWithinRow hm l s
  hl.settle _ _ _ fun _ => hl

/-- R26: every command's own effect stays within its row. -/
theorem effect_writesWithinRow (i : Instr) (s : State) : WritesWithinRow i.mnemonic s (effect i s) := by
  cases i with
  | setoct | setdac | setcnf | setconf => exact setFieldCommand_writesWithinRow rfl _ _ s
  | getoct | getdac | getcnf | getfreq => exact (WritesWithinRow.refl _ s).respond _ _
  | setfreq f => exact setFreqCommand_writesWithinRow f s
  | wrout =>
    have hw := busWrite_writesWithinRow (m := .wrout) rfl s.addr (firstByte s.reg) (secondByte s.reg) s
    exact hw.settle _ _ _ fun _ => hw
  | refresh =>
    have hr := busRead_writesWithinRow .refresh s.addr s
    exact hr.settle _ _ _ fun _ => hr.setReg rfl _
  | oen => exact lineCommand_writesWithinRow rfl .high s
  | odis => exact lineCommand_writesWithinRow rfl .low s
  | free => exact ((WritesWithinRow.refl _ s).setRel rfl true).respond _ _

/-- R26, R122: so does every command, released or not. -/
theorem exec_writesWithinRow {i : Instr} {s t : State} (h : exec i s = .next t) : WritesWithinRow i.mnemonic s t := by
  cases hrel : s.rel with
  | false => cases (exec_owned i s hrel).symm.trans h; exact effect_writesWithinRow i s
  | true => cases (exec_released i s hrel).symm.trans h; exact (WritesWithinRow.refl _ s).respond _ _

/-- Settles O37. -/
theorem commandsWriteWithinTheirRow : Obligations.CommandsWriteWithinTheirRow := by
  intro i s
  obtain ⟨haddr, hinputs, -, hreg, hfreq, hrel, hdevreg, hline⟩ := exec_writesWithinRow (exec_eq i s)
  exact ⟨_, exec_eq i s, haddr, hinputs, hreg, hfreq, hrel, hdevreg, hline⟩

theorem hostReset_params (adrSel : Bool) (s : State) : (hostReset adrSel s).params = s.params := by
  obtain ⟨l, ⟨-, heq⟩ | ⟨-, d, heq⟩⟩ := hostReset_cases adrSel s <;> rw [heq]

theorem hostReset_freq (adrSel : Bool) (s : State) : (hostReset adrSel s).freq = 1039#32 := by
  obtain ⟨l, ⟨-, heq⟩ | ⟨-, d, heq⟩⟩ := hostReset_cases adrSel s <;> rw [heq]

/-- Settles O34, by the moves step can make. -/
theorem parametersNeverChange : Obligations.ParametersNeverChange := by
  refine ⟨fun s t h => ?_, fun _ _ _ _ => rfl⟩
  rcases step_cases s t h with ⟨-, rfl⟩ | ⟨w, rest, i, -, -, -, hexec⟩ | ⟨w, rest, r, -, -, -, rfl⟩ |
    ⟨adrSel, rest, -, rfl⟩ | ⟨v, rest, -, rfl⟩
  · rfl
  · exact (exec_writesWithinRow hexec).params
  · rfl
  · exact hostReset_params adrSel _
  · rfl

/-- R12: a command other than SETFREQ leaves FREQ. -/
theorem writesFreq_eq_false {i : Instr} (hi : ∀ f, i ≠ .setfreq f) : writesFreq i.mnemonic = false := by
  cases i with
  | setfreq f => exact absurd rfl (hi f)
  | _ => rfl

/-- R12: SETFREQ leaves FREQ, or is accepted, finds the frequency's band, caches it and answers OK. -/
theorem exec_setfreq_freq {f : Word} {s t : State} (hp : s.params.wellFormed = true)
    (h : exec (.setfreq f) s = .next t) :
    t.freq = s.freq ∨
      (s.rel = false ∧ (1039 ≤ f.toNat ∧ f.toNat ≤ 68030000) ∧ t.freq = f ∧ t.lastStatus = some .ok) := by
  cases hrel : s.rel with
  | true => cases (exec_released _ s hrel).symm.trans h; exact .inl rfl
  | false =>
    obtain rfl : setFreqCommand f s = t := Host.Outcome.next.inj ((exec_owned _ s hrel).symm.trans h)
    rcases setFreqCommand_cases f s with ⟨st, heq⟩ | ⟨oct, r, hoct, heq⟩ <;> rw [heq]
    · exact .inl rfl
    · exact .inr ⟨rfl, range_of_octaveLookup_band (Params.bands_wellFormed hp) hoct, rfl, rfl⟩

/-- Settles O41, by the moves step can make: of the commands only SETFREQ writes FREQ. -/
theorem freqChangesBySetfreqOrResetOnly : Obligations.FreqChangesBySetfreqOrResetOnly := by
  intro s t hp h
  rcases step_cases s t h with ⟨-, rfl⟩ | ⟨w, rest, i, hin, -, hd, hexec⟩ | ⟨w, rest, r, -, -, -, rfl⟩ |
    ⟨adrSel, rest, hin, rfl⟩ | ⟨v, rest, -, rfl⟩
  · exact .inl rfl
  · by_cases hi : ∃ f, i = .setfreq f
    · obtain ⟨f, rfl⟩ := hi
      rcases exec_setfreq_freq (s := s.setInputs rest) hp hexec with hkept | ⟨hrel, ⟨hlow, hhigh⟩, hf, hok⟩
      · exact .inl hkept
      · exact .inr (.inr ⟨w, rest, f, hin, hd, hrel, hlow, hhigh, hf, hok⟩)
    · exact .inl ((exec_writesWithinRow hexec).freq (writesFreq_eq_false (not_exists.1 hi)))
  · exact .inl rfl
  · exact .inr (.inl ⟨adrSel, rest, hin, hostReset_freq adrSel _⟩)
  · exact .inl rfl

end Sys2Proof.Machine
end

section
/-!
PROOFS. What a command reads of the environment (10_state.md R26, R21; 42_device_session.md R120): how a command's effect
changes when LINE or DEVREG holds something else before it.
-/

namespace Sys2Proof.Machine

/-- R20(c): what DEVREG held before a BusWrite is lost. -/
theorem busWrite_setDevreg (a : BusAddr) (b0 b1 : Byte) (d : Half) (s : State) :
    busWrite a b0 b1 (s.setDevreg d) = busWrite a b0 b1 s := rfl

/-- R21: what LINE held before a LineSet is lost. -/
theorem lineSet_setLine (k l : Level) (s : State) : lineSet k (s.setLine l) = lineSet k s := rfl

/-- An update of a part of the state that the two ways a command ends, responding and hanging, leave alone. -/
structure CommutesWithEnding (g : State → State) : Prop where
  respond : ∀ st d t, (g t).respond st d = g (t.respond st d)
  setHung : ∀ t, (g t).setHung true = g (t.setHung true)

theorem commutesWithEnding_setLine (l : Level) : CommutesWithEnding (State.setLine l) :=
  ⟨fun _ _ _ => rfl, fun _ => rfl⟩

theorem commutesWithEnding_setDevreg (d : Half) : CommutesWithEnding (State.setDevreg d) :=
  ⟨fun _ _ _ => rfl, fun _ => rfl⟩

section
variable {g : State → State} (hg : CommutesWithEnding g)
include hg

/-- The update g before a command with one environment operation ends is the update after it. -/
theorem CommutesWithEnding.settle {α : Type} (error : Status) (onOk : α → State → State)
    (a : Option (Answer Word α)) (s : State) (hok : ∀ x, onOk x (g s) = g (onOk x s)) :
    settle error onOk (a, g s) = g (settle error onOk (a, s)) := by
  match a with
  | some (.ok x) => rw [settle_ok, settle_ok, hok, hg.respond]
  | some (.err e) => exact hg.respond error e s
  | none => exact hg.setHung s

/-- SETFREQ reads the band table and REG only. -/
theorem CommutesWithEnding.setFreqCommand (f : Word) (s : State) (hparams : (g s).params = s.params)
    (hreg : (g s).reg = s.reg) (hset : ∀ v, ((g s).setReg v).setFreq f = g ((s.setReg v).setFreq f)) :
    setFreqCommand f (g s) = g (setFreqCommand f s) := by
  unfold Machine.setFreqCommand
  rw [hparams, hreg]
  cases octaveLookup s.params.bands f.toNat with
  | tooLow => exact hg.respond _ _ s
  | tooHigh => exact hg.respond _ _ s
  | band oct => exact (congrArg _ (hset _)).trans (hg.respond _ _ _)

end

/-- R21, R120: LINE before a command is overwritten by OEN and ODIS, and passed through by every other command. -/
theorem effect_setLine (i : Instr) (l : Level) (s : State) :
    effect i (s.setLine l) = if writesLine i.mnemonic then effect i s else (effect i s).setLine l := by
  have hg := commutesWithEnding_setLine l
  cases i with
  | setfreq f => exact hg.setFreqCommand f s rfl rfl fun _ => rfl
  | wrout => exact hg.settle _ _ _ (busWrite s.addr (firstByte s.reg) (secondByte s.reg) s).2 fun _ => rfl
  | refresh => exact hg.settle _ _ _ (busRead s.addr s).2 fun _ => rfl
  | oen => exact congrArg (settle .lineError fun _ t => t) (lineSet_setLine .high l s)
  | odis => exact congrArg (settle .lineError fun _ t => t) (lineSet_setLine .low l s)
  | setoct | getoct | setdac | getdac | setcnf | getcnf | getfreq | setconf | free => rfl

/-- R26: DEVREG before a command is overwritten by WROUT, and passed through by every other command but REFRESH. -/
theorem effect_setDevreg (i : Instr) (d : Half) (s : State) (hi : readsDevreg i.mnemonic = false) :
    effect i (s.setDevreg d) = if writesDevreg i.mnemonic then effect i s else (effect i s).setDevreg d := by
  have hg := commutesWithEnding_setDevreg d
  cases i with
  | setfreq f => exact hg.setFreqCommand f s rfl rfl fun _ => rfl
  | wrout => exact congrArg (settle .busError fun _ t => t) (busWrite_setDevreg s.addr _ _ d s)
  | refresh => cases hi
  | oen => exact hg.settle _ _ _ (lineSet .high s).2 fun _ => rfl
  | odis => exact hg.settle _ _ _ (lineSet .low s).2 fun _ => rfl
  | setoct | getoct | setdac | getdac | setcnf | getcnf | getfreq | setconf | free => rfl

/-- Settles O38: a command overwrites what LINE or DEVREG held or passes it through, and a released one passes it through. -/
theorem environmentIsReadByRefreshOnly : Obligations.EnvironmentIsReadByRefreshOnly := by
  refine fun i s => ⟨fun l => ⟨_, _, exec_eq i s, exec_eq i (s.setLine l), ?_⟩,
    fun d hi => ⟨_, _, exec_eq i s, exec_eq i (s.setDevreg d), ?_⟩⟩
  · rw [State.setLine_rel, effect_setLine]
    cases s.rel <;> cases writesLine i.mnemonic <;> rfl
  · rw [State.setDevreg_rel, effect_setDevreg i d s hi]
    cases s.rel <;> cases writesDevreg i.mnemonic <;> rfl

end Sys2Proof.Machine
end

section
/-!
PROOFS. A command's word decodes to the command (30_encoding.md R52 to R54, R65), and at the command port it is what the
next step runs (10_state.md R14).
-/

namespace Sys2Proof

/-- R54: an opcode selects its own row. -/
theorem Mnemonic.ofOpcode_opcode (m : Mnemonic) : Mnemonic.ofOpcode m.opcode = some m := by
  cases m <;> rfl

/-- R53: the number of an operand's values is given by its width; a command without an operand has the one arg 0. -/
theorem Mnemonic.operandCount_eq (m : Mnemonic) : m.operandCount.getD 1 = 2 ^ m.operandWidth := by
  cases m <;> rfl

/-- R61: a variant's number is that variant. -/
theorem OutputConf.ofNumber_number (c : OutputConf) : OutputConf.ofNumber c.number = c := by
  cases c <;> rfl

/-- The facts about a command's word hold of every command. -/
theorem wordOfRow_statement : ∀ i : Instr, Laws.WordOfRow.Statement i
  | .setoct v => Laws.WordOfRow.setoct v
  | .getoct => Laws.WordOfRow.getoct
  | .setdac v => Laws.WordOfRow.setdac v
  | .getdac => Laws.WordOfRow.getdac
  | .setcnf v => Laws.WordOfRow.setcnf v
  | .getcnf => Laws.WordOfRow.getcnf
  | .setfreq f => Laws.WordOfRow.setfreq f
  | .getfreq => Laws.WordOfRow.getfreq
  | .setconf c => Laws.WordOfRow.setconf c
  | .wrout => Laws.WordOfRow.wrout
  | .refresh => Laws.WordOfRow.refresh
  | .oen => Laws.WordOfRow.oen
  | .odis => Laws.WordOfRow.odis
  | .free => Laws.WordOfRow.free

/-- R53: arg is under the operand's bound. -/
theorem Instr.arg_lt (i : Instr) : i.arg.toNat < 2 ^ i.mnemonic.operandWidth := by
  obtain ⟨-, -, -, hlt⟩ := wordOfRow_statement i
  exact i.mnemonic.operandCount_eq ▸ hlt

/-- R65 step 4: the operand slice of arg is the operand. -/
theorem Instr.build_arg (i : Instr) : i.mnemonic.build i.arg = i := by
  cases i with
  | setoct v | setdac v | setcnf v =>
    simp [mnemonic, arg, Mnemonic.build, BitVec.extractLsb'_setWidth_of_le]
  | setconf c => cases c <;> rfl
  | setfreq | getoct | getdac | getcnf | getfreq | wrout | refresh | oen | odis | free => rfl

/-- R52, R54, R65: decoding a command's word gives the command back. -/
theorem decode_encode (i : Instr) : decode (encode i) = .command i := by
  obtain ⟨hop, harg⟩ := Laws.WordOfRow.fields i
  have hshift : i.arg >>> i.mnemonic.operandWidth = 0#32 :=
    BitVec.eq_of_toNat_eq (by simp [Nat.shiftRight_eq_div_pow, Nat.div_eq_of_lt i.arg_lt])
  simp [decode, hop, harg, Mnemonic.ofOpcode_opcode, hshift, Instr.build_arg]

namespace Machine

/-- A word numbered as the opcode table numbers it, in 36 bits or more, keeps its number. -/
theorem toNat_mod_tableWidth (w : CmdWord) {nbits : Nat} (hn : 36 ≤ nbits) : w.toNat % 2 ^ nbits = w.toNat :=
  Nat.mod_eq_of_lt (w.isLt.trans_le (Nat.pow_le_pow_right two_pos hn))

theorem decodeTableWord_toNat (w : CmdWord) {nbits : Nat} (hn : 36 ≤ nbits) {i : Instr} (hd : decode w = .command i) :
    decodeTableWord nbits w.toNat = some i := by
  simp [decodeTableWord, toNat_mod_tableWidth w hn, w.isLt, hd]

/-- The word placed at the port is the host's next move. -/
theorem withFetchWord_inputs (s : State) (w : CmdWord) {nbits : Nat} (hn : 36 ≤ nbits) :
    (s.withFetchWord nbits w.toNat).inputs = .command w :: s.inputs := by
  simp [State.withFetchWord, presentWord, toNat_mod_tableWidth w hn]

/-- Settles O46. -/
theorem presentedWordIsTheCommandRun : Obligations.PresentedWordIsTheCommandRun :=
  fun i s _ hn => ⟨decodeTableWord_toNat _ hn (decode_encode i),
    step_command rfl (withFetchWord_inputs s _ hn) (decode_encode i)⟩

end Machine

end Sys2Proof
end

section
/-!
PROOFS. The environment's part of a command (20_memory.md): the one operation a command may perform (R36), and the target's
register between a WROUT and a REFRESH (R35, R41; 10_state.md R20).
-/

namespace Sys2Proof.Machine

/-- What a command puts on the record while REL = 0 (R36; 42_device_session.md R118, R119). -/
def ownOperation (i : Instr) (s : State) : Option EnvEvent :=
  match i with
  | .wrout => some (.busWrite s.addr (firstByte s.reg) (secondByte s.reg) s.nextBusAnswer)
  | .refresh => some (.busRead s.addr s.readAnswer)
  | .oen => some (.lineSet .high s.nextLineAnswer)
  | .odis => some (.lineSet .low s.nextLineAnswer)
  | .setoct _ | .getoct | .setdac _ | .getdac | .setcnf _ | .getcnf | .setfreq _ | .getfreq | .setconf _ | .free => none

/-- How a command ends performs no operation of its own. -/
theorem settle_activity {α : Type} (error : Status) (onOk : α → State → State) (a : Option (Answer Word α)) (s : State)
    (hok : ∀ x, (onOk x s).activity = s.activity) : (settle error onOk (a, s)).activity = s.activity := by
  match a with
  | some (.ok x) => exact hok x
  | some (.err e) => rfl
  | none => rfl

theorem setFreqCommand_activity (f : Word) (s : State) : (setFreqCommand f s).activity = s.activity := by
  rcases setFreqCommand_cases f s with ⟨st, heq⟩ | ⟨oct, t, -, heq⟩ <;> rw [heq] <;> rfl

/-- R36: a command's own effect adds its one operation to the record, or nothing. -/
theorem effect_activity (i : Instr) (s : State) :
    (effect i s).activity = (ownOperation i s).toList ++ s.activity := by
  cases i with
  | setfreq f => exact setFreqCommand_activity f s
  | wrout | refresh | oen | odis => exact settle_activity _ _ _ _ fun _ => rfl
  | setoct | getoct | setdac | getdac | setcnf | getcnf | getfreq | setconf | free => rfl

theorem ownOperation_eq_none {i : Instr} (hi : actsOutside i.mnemonic = false) (s : State) : ownOperation i s = none := by
  cases i with
  | wrout | refresh | oen | odis => cases hi
  | setoct | getoct | setdac | getdac | setcnf | getcnf | setfreq | getfreq | setconf | free => rfl

/-- Settles O40: a released PORE only answers, and otherwise the command's own effect decides. -/
theorem eachCommandPerformsAtMostOneOperation : Obligations.EachCommandPerformsAtMostOneOperation := by
  intro i s
  cases hrel : s.rel with
  | true => exact ⟨_, exec_released i s hrel, fun _ => rfl, fun _ => rfl, nofun, nofun, nofun, nofun⟩
  | false =>
    have hact := effect_activity i s
    refine ⟨_, exec_owned i s hrel, nofun, fun hi => ?_, ?_, ?_, ?_, ?_⟩
    · rw [hact, ownOperation_eq_none hi]; rfl
    all_goals rintro - rfl; exact ⟨_, hact⟩

/-- R35, R51: the two bytes of a register, most significant first, make the register again. -/
theorem ofBytes_firstByte_secondByte (reg : Half) : ofBytes (firstByte reg) (secondByte reg) = reg := by
  apply eq_of_bits
  intro i hi
  rw [ofBytes, getLsbD_append_bytes]
  split
  · next h => simp [secondByte, h]
  · next h => simp [firstByte, show i - 8 < 8 by omega, show 8 + (i - 8) = i by omega]

/-- R20(a): a WROUT answered Ok leaves REG in the target. -/
theorem effect_wrout_devreg {s : State} (h : s.nextBusAnswer = some (.ok ())) : (effect .wrout s).devreg = s.reg := by
  obtain ⟨d, hw, hd⟩ := busWrite_cases s.addr (firstByte s.reg) (secondByte s.reg) s
  simp only [effect, hw, h, settle_ok, State.respond_devreg, hd h, ofBytes_firstByte_secondByte]

/-- R20(b), R115: a REFRESH answered Ok loads what the target holds. -/
theorem effect_refresh_reg {s : State} (h : s.nextBusAnswer = some (.ok ())) : (effect .refresh s).reg = s.devreg := by
  simp only [effect, busRead_eq, readAnswer_ok s h, settle_ok, State.respond_reg, State.setReg_reg,
    ofBytes_firstByte_secondByte]

/-- R26: a command other than WROUT leaves DEVREG. -/
theorem writesDevreg_eq_false {i : Instr} (hi : i ≠ .wrout) : writesDevreg i.mnemonic = false := by
  cases i with
  | wrout => exact absurd rfl hi
  | _ => rfl

/-- The target holds v, and no move to come is a WROUT, a reset or another master's write. -/
structure KeepsDevreg (v : Half) (s : State) : Prop where
  devreg : s.devreg = v
  leavesDevice : s.inputs.all Input.leavesDevice = true

/-- R20(e): a step that is none of these keeps DEVREG. -/
theorem step_keepsDevreg {v : Half} {s t : State} (hs : KeepsDevreg v s) (h : step s = .next t) : KeepsDevreg v t := by
  obtain ⟨hdev, hin⟩ := hs
  have hcons {m : Input} {rest : List Input} (hm : s.inputs = m :: rest) :
      m.leavesDevice = true ∧ rest.all Input.leavesDevice = true := by simpa [hm] using hin
  rcases step_cases s t h with ⟨-, rfl⟩ | ⟨w, rest, i, hm, -, hd, hexec⟩ | ⟨w, rest, r, hm, -, -, rfl⟩ |
    ⟨adrSel, rest, hm, -⟩ | ⟨d, rest, hm, -⟩
  · exact ⟨hdev, hin⟩
  · obtain ⟨hw, hrest⟩ := hcons hm
    have hi : i ≠ .wrout := by rintro rfl; simp [Input.leavesDevice, hd] at hw
    have hrow := exec_writesWithinRow hexec
    exact ⟨(hrow.devreg (writesDevreg_eq_false hi)).trans hdev, hrow.inputs ▸ hrest⟩
  · exact ⟨hdev, (hcons hm).2⟩
  · exact absurd (hcons hm).1 nofun
  · exact absurd (hcons hm).1 nofun

/-- Settles O43: WROUT leaves REG in the target, every step of the run keeps it there, and REFRESH loads it. -/
theorem refreshAfterWroutReturnsTheValueWritten : Obligations.RefreshAfterWroutReturnsTheValueWritten := by
  intro k s t u hrel hok hwrout hin hrun hrelu hoku
  obtain rfl : effect .wrout s = t := Host.Outcome.next.inj ((exec_owned _ s hrel).symm.trans hwrout)
  have hkept : KeepsDevreg s.reg u :=
    run_induction (KeepsDevreg s.reg) (fun _ _ hv hstep => step_keepsDevreg hv hstep) k _ u
      ⟨effect_wrout_devreg hok, hin⟩ hrun
  exact ⟨_, exec_owned .refresh u hrelu, (effect_refresh_reg hoku).trans hkept.devreg⟩

end Sys2Proof.Machine
end

section
/-!
PROOFS. A word is a command of at most one row (30_encoding.md R54): the words of a row, with their op and an arg below the
operand's bound (R52, R53), are the words that decode to its commands (R65), the words its mask and match select, and
everything but the reserved words (R55, R56).
-/

namespace Sys2Proof

/-- R52, R53, R54: op is the row's opcode, and arg has no 1 above the row's operand slice. -/
def Mnemonic.HasWord (m : Mnemonic) (w : CmdWord) : Prop :=
  opField w = m.opcode ∧ (argField w).toNat < 2 ^ m.operandWidth

/-- R54: the row an opcode selects is the row with that opcode. -/
theorem Mnemonic.ofOpcode_eq_some_iff {op : BitVec 4} {m : Mnemonic} : ofOpcode op = some m ↔ op = m.opcode := by
  constructor
  · have hrow : ∀ op : BitVec 4, ∀ m ∈ ofOpcode op, op = m.opcode := by decide
    exact hrow op m
  · rintro rfl
    exact m.ofOpcode_opcode

/-- R55: the opcodes of no row. -/
theorem Mnemonic.ofOpcode_eq_none_iff {op : BitVec 4} : ofOpcode op = none ↔ op = 0x0#4 ∨ op = 0xF#4 := by
  revert op
  decide

/-- R54: rows have opcodes of their own. -/
theorem Mnemonic.opcode_injective {m n : Mnemonic} (h : m.opcode = n.opcode) : m = n := by
  simpa [ofOpcode_opcode] using congrArg ofOpcode h

/-- The words of two rows are different words. -/
theorem Mnemonic.HasWord.unique {m n : Mnemonic} {w : CmdWord} (hm : m.HasWord w) (hn : n.HasWord w) : m = n :=
  opcode_injective (hm.1.symm.trans hn.1)

/-- R56: no 1 above the low n bits, as a bound. -/
theorem ushiftRight_eq_zero_iff (a : Word) (n : Nat) : a >>> n = 0#32 ↔ a.toNat < 2 ^ n := by
  simp [← BitVec.toNat_inj, Nat.shiftRight_eq_div_pow]

/-- R65 step 4: building a row's command gives a command of that row. -/
@[simp] theorem Mnemonic.mnemonic_build (m : Mnemonic) (a : Word) : (m.build a).mnemonic = m := by
  cases m <;> rfl

/-- R61: the variant of a number has that number. -/
theorem OutputConf.number_ofNumber (v : BitVec 2) : (ofNumber v).number = v := by
  revert v
  decide

/-- R53: an arg with no 1 above the operand slice is the arg of the command built from it. -/
theorem Mnemonic.arg_build {m : Mnemonic} {a : Word} (ha : a.toNat < 2 ^ m.operandWidth) : (m.build a).arg = a := by
  apply BitVec.eq_of_toNat_eq
  cases m with
  | setoct | setdac | setcnf | setconf =>
    simp only [operandWidth] at ha
    simp [build, Instr.arg, OutputConf.number_ofNumber]
    omega
  | setfreq => rfl
  | getoct | getdac | getcnf | getfreq | wrout | refresh | oen | odis | free =>
    simp only [operandWidth] at ha
    simp [build, Instr.arg]
    omega

/-- R65: a word decodes to the row's command with its operand in arg, when it is a word of some row. -/
theorem decode_of_hasWord {m : Mnemonic} {w : CmdWord} (h : m.HasWord w) :
    decode w = .command (m.build (argField w)) := by
  obtain ⟨hop, harg⟩ := h
  simp [decode, hop, m.ofOpcode_opcode, (ushiftRight_eq_zero_iff _ _).2 harg]

/-- R55, R56, R65: a word of no row is reserved. -/
theorem decode_reserved_of_not_hasWord {w : CmdWord} (h : ∀ m : Mnemonic, ¬ m.HasWord w) :
    ∃ r, decode w = .reserved r := by
  unfold decode
  split
  · exact ⟨_, rfl⟩
  · next m hm =>
    have harg : ¬ argField w >>> m.operandWidth = 0#32 := fun h0 =>
      h m ⟨Mnemonic.ofOpcode_eq_some_iff.1 hm, (ushiftRight_eq_zero_iff _ _).1 h0⟩
    exact ⟨_, if_neg harg⟩

/-- Decoding answers one of the two, as the word has a row or has none. -/
theorem exists_reserved_iff (w : CmdWord) : (∃ r, decode w = .reserved r) ↔ ∀ m : Mnemonic, ¬ m.HasWord w := by
  refine ⟨fun ⟨r, hr⟩ m hm => ?_, decode_reserved_of_not_hasWord⟩
  simp [decode_of_hasWord hm] at hr

/-- A word that decodes to a command is a word of the command's row, and its arg is the command's. -/
theorem hasWord_of_decode {w : CmdWord} {i : Instr} (h : decode w = .command i) :
    i.mnemonic.HasWord w ∧ i.arg = argField w := by
  by_cases hrow : ∃ m : Mnemonic, m.HasWord w
  · obtain ⟨m, hm⟩ := hrow
    obtain rfl : m.build (argField w) = i := by simpa [decode_of_hasWord hm] using h
    exact ⟨by simpa using hm, Mnemonic.arg_build hm.2⟩
  · obtain ⟨r, hr⟩ := decode_reserved_of_not_hasWord (not_exists.1 hrow)
    simp [h] at hr

/-- Settles O2: the word has the command's op and arg, and the operand slice of that arg is the operand. -/
theorem decodeOfEncodeIsTheCommand : Obligations.DecodeOfEncodeIsTheCommand :=
  decode_encode

/-- Settles O3: a word is its op and its arg, and both are the command's. -/
theorem encodeOfDecodeIsTheWord : Obligations.EncodeOfDecodeIsTheWord := by
  intro w i h
  obtain ⟨⟨hop, -⟩, harg⟩ := hasWord_of_decode h
  calc encode i = (opField w ++ argField w : BitVec 36) := by rw [encode, hop, harg]
    _ = w := append_extract w

/-- R54: a row's mask has all of op and the bits of arg above the operand slice. -/
theorem Mnemonic.mask_eq (m : Mnemonic) : m.mask = (0xF#4 ++ BitVec.allOnes 32 <<< m.operandWidth : BitVec 36) := by
  cases m <;> decide

/-- R54: a row's match has its opcode, and arg 0. -/
theorem Mnemonic.pattern_eq (m : Mnemonic) : m.pattern = (m.opcode ++ 0#32 : BitVec 36) := by
  cases m <;> decide

/-- The bits of a word from bit n on are all 0 exactly when the word is below 2 ^ n. -/
theorem and_highMask_eq_zero_iff (a : Word) (n : Nat) : a &&& BitVec.allOnes 32 <<< n = 0#32 ↔ a.toNat < 2 ^ n := by
  have hmul : a.toNat / 2 ^ n * 2 ^ n < 4294967296 := (Nat.div_mul_le_self _ _).trans_lt a.isLt
  rw [← BitVec.shiftLeft_ushiftRight, ← BitVec.toNat_inj]
  simp [Nat.shiftRight_eq_div_pow, Nat.shiftLeft_eq, Nat.mod_eq_of_lt hmul]

/-- R54: mask and match select the row's words. -/
theorem Mnemonic.and_mask_eq_pattern_iff (m : Mnemonic) (w : CmdWord) : w &&& m.mask = m.pattern ↔ m.HasWord w := by
  have hand : w &&& m.mask =
      ((opField w &&& 0xF#4) ++ (argField w &&& BitVec.allOnes 32 <<< m.operandWidth) : BitVec 36) := by
    rw [m.mask_eq, ← BitVec.and_append]
    exact congrArg (· &&& _) (append_extract w).symm
  have hop : opField w &&& 0xF#4 = opField w := BitVec.and_allOnes
  rw [hand, m.pattern_eq, append_word_inj, hop, and_highMask_eq_zero_iff, HasWord]

/-- Settles O4: mask and match, and decode, both pick the words of the row. -/
theorem maskAndMatchSelectTheCommand : Obligations.MaskAndMatchSelectTheCommand := by
  refine ⟨fun w m => ?_, fun w m n hm hn => ?_, fun w h => ?_⟩
  · rw [m.and_mask_eq_pattern_iff]
    exact ⟨decode_of_hasWord, fun h => by simpa using (hasWord_of_decode h).1⟩
  · rw [Mnemonic.and_mask_eq_pattern_iff] at hm hn
    exact hm.unique hn
  · exact decode_reserved_of_not_hasWord fun m hm => h m ((m.and_mask_eq_pattern_iff w).2 hm)

namespace Machine

/-- R56: the operand check of reservedWord looks at every row. -/
theorem reservedWord_eq_true_iff (w : CmdWord) : reservedWord w = true ↔
    (opField w = 0x0#4 ∨ opField w = 0xF#4) ∨
      ∃ m : Mnemonic, m.opcode = opField w ∧ 2 ^ m.operandWidth ≤ (argField w).toNat := by
  have hall : ∀ m : Mnemonic, m ∈ [Mnemonic.setoct, .getoct, .setdac, .getdac, .setcnf, .getcnf, .setfreq, .getfreq,
      .setconf, .wrout, .refresh, .oen, .odis, .free] := by
    intro m; cases m <;> decide
  simp only [reservedWord, Bool.or_eq_true, beq_iff_eq, List.any_eq_true, Bool.and_eq_true, decide_eq_true_eq,
    Mnemonic.operandCount_eq, hall, true_and, opField, argField]

/-- R55, R56: the reserved words, in the spec's terms, are the words of no row. -/
theorem reservedWord_iff (w : CmdWord) : reservedWord w = true ↔ ∀ m : Mnemonic, ¬ m.HasWord w := by
  rw [reservedWord_eq_true_iff, ← Mnemonic.ofOpcode_eq_none_iff]
  cases hop : Mnemonic.ofOpcode (opField w) with
  | none =>
    refine iff_of_true (.inl rfl) fun m hm => ?_
    simp [hm.1, m.ofOpcode_opcode] at hop
  | some n =>
    rw [Mnemonic.ofOpcode_eq_some_iff] at hop
    constructor
    · rintro (h | ⟨m, hm, hle⟩) k hk
      · cases h
      · obtain rfl : m = k := Mnemonic.opcode_injective (hm.trans hk.1)
        exact absurd hk.2 (not_lt.2 hle)
    · exact fun h => .inr ⟨n, hop.symm, not_lt.1 fun hlt => h n ⟨hop, hlt⟩⟩

/-- Settles O5: reserved, by reservedWord and by decode, are the words of no row. -/
theorem decodeReservesExactlyTheReservedWords : Obligations.DecodeReservesExactlyTheReservedWords := by
  intro w
  have hres : reservedWord w = true ↔ ∃ r, decode w = .reserved r :=
    (reservedWord_iff w).trans (exists_reserved_iff w).symm
  refine ⟨hres, ?_⟩
  rw [← Bool.not_eq_true, hres]
  cases decode w <;> simp

/-- R135, R139(1): a reserved word is answered ILLEGAL while no command is in progress. -/
theorem step_reserved {s : State} {w : CmdWord} {rest : List Input} {r : Reserved} (hh : s.hung = false)
    (hin : s.inputs = .command w :: rest) (hd : decode w = .reserved r) :
    step s = .next ((s.setInputs rest).raise .illegal 0#32) := by
  simp [step, nextMove, hin, hh, hd]

/-- Settles O9: decode reserves the word, so step only answers it. -/
theorem reservedWordIsAnsweredIllegal : Obligations.ReservedWordIsAnsweredIllegal := by
  refine ⟨rfl, fun s w rest hh hin hw => ?_⟩
  obtain ⟨r, hr⟩ := (decodeReservesExactlyTheReservedWords w).1.1 hw
  exact step_reserved hh hin hr

end Machine

end Sys2Proof
end

section
/-!
PROOFS. The assembler (30_encoding.md R62, R63): a line's command, its operand's bound (R53), and the spec's examples (R64).
-/

namespace Sys2Proof.Machine

/-- R62: an ill-formed line is an assembly error. -/
theorem assemble_illFormed {l : AsmLine} (h : l.wellFormed = false) : assemble l = none := by
  simp [assemble, h]

/-- R62: a well-formed line is the command of its mnemonic with its operand. -/
theorem assemble_wellFormed {l : AsmLine} (h : l.wellFormed = true) :
    assemble l = some (l.mnemonic.build (BitVec.ofNat 32 (operandValue l.operand))) := by
  simp [assemble, h]

/-- R62, R63: a well-formed line's operand is under its command's bound. -/
theorem operandValue_lt {l : AsmLine} (h : l.wellFormed = true) :
    operandValue l.operand < 2 ^ l.mnemonic.operandWidth := by
  obtain ⟨m, o⟩ := l
  simp only [AsmLine.wellFormed, Bool.and_eq_true] at h
  obtain ⟨⟨hpresent, hrange⟩, hsymbol⟩ := h
  match o with
  | none => exact Nat.two_pow_pos _
  | some (.symbol c) =>
    obtain rfl : m = .setconf := by simpa [AsmLine.symbolPlace] using hsymbol
    exact c.number.isLt
  | some (.number n) =>
    rw [← m.operandCount_eq]
    cases hk : m.operandCount with
    | none => simp [AsmLine.operandPresence, hk] at hpresent
    | some k => simpa [AsmLine.operandRange, hk, operandValue] using hrange

/-- R53: an operand slice lies in arg. -/
theorem operandWidth_le (m : Mnemonic) : m.operandWidth ≤ 32 := by
  cases m <;> decide

/-- Settles O44: a well-formed line's operand fits its slice, so arg is the operand. -/
theorem assemblerTakesExactlyTheWellFormedLines : Obligations.AssemblerTakesExactlyTheWellFormedLines := by
  refine fun l => ⟨assemble_illFormed, fun h =>
    ⟨_, assemble_wellFormed h, Mnemonic.mnemonic_build _ _, ?_, decode_encode _⟩⟩
  have hlt := operandValue_lt h
  have harg : (BitVec.ofNat 32 (operandValue l.operand)).toNat = operandValue l.operand :=
    Nat.mod_eq_of_lt (hlt.trans_le (Nat.pow_le_pow_right two_pos (operandWidth_le _)))
  rw [Mnemonic.arg_build (harg.symm ▸ hlt), harg]

/-- R63: a symbol is the operand of SETCONF only. -/
theorem assemble_symbol {m : Mnemonic} (hm : m ≠ .setconf) (c : OutputConf) : assemble ⟨m, some (.symbol c)⟩ = none :=
  assemble_illFormed (by simp [AsmLine.wellFormed, AsmLine.symbolPlace, hm])

/-- Settles O45: the eight lines are read one by one. -/
theorem setconfSymbolsAreTheirNumbers : Obligations.SetconfSymbolsAreTheirNumbers :=
  ⟨by decide, fun _ c hm => assemble_symbol hm c⟩

/-- Settles O1: each line is read, and its word is the command's, so decodes to it. -/
theorem writtenOutWordsDecode : Obligations.WrittenOutWordsDecode :=
  ⟨⟨by decide, decode_encode (.setoct 6#4)⟩, ⟨by decide, decode_encode .getoct⟩,
    ⟨by decide, decode_encode (.setdac 788#10)⟩, ⟨by decide, decode_encode .getdac⟩,
    ⟨by decide, decode_encode (.setcnf 1#2)⟩, ⟨by decide, decode_encode .getcnf⟩,
    ⟨by decide, decode_encode (.setfreq 108000#32)⟩, ⟨by decide, decode_encode .getfreq⟩,
    ⟨by decide, decode_encode (.setconf .both)⟩, ⟨by decide, decode_encode .wrout⟩,
    ⟨by decide, decode_encode .refresh⟩, ⟨by decide, decode_encode .oen⟩, ⟨by decide, decode_encode .odis⟩,
    ⟨by decide, decode_encode .free⟩, by decide⟩

end Sys2Proof.Machine
end

section
/-!
PROOFS. The layouts: the response word (30_encoding.md R57, R59), the register's fields (R50) and its bytes (R51).
-/

namespace Sys2Proof.Machine

/-- R59: the status numbers are 0 to 6. -/
theorem exists_code_eq_iff (n : BitVec 4) : (∃ st : Status, st.code = n) ↔ n.toNat ≤ 6 := by
  constructor
  · rintro ⟨st, rfl⟩
    cases st <;> decide
  · have hcodes : ∀ n : BitVec 4, n.toNat ≤ 6 →
        n ∈ [Status.ok, .tooLow, .tooHigh, .busError, .lineError, .illegal, .released].map Status.code := by decide
    intro hn
    obtain ⟨st, -, hst⟩ := List.mem_map.1 (hcodes n hn)
    exact ⟨st, hst⟩

/-- Settles O6: the two fields of a port's word, and the table of statuses. -/
theorem responseWordIsStatusThenData : Obligations.ResponseWordIsStatusThenData :=
  ⟨fun r => ⟨extract_op_append r.status.code r.data, extract_arg_append r.status.code r.data⟩, exists_code_eq_iff,
    rfl, rfl, rfl, rfl, rfl, rfl, rfl⟩

/-- R50: REG = OCT * 4096 + DAC * 4 + CNF. -/
theorem toNat_eq_fields (reg : Half) : reg.toNat =
    (reg.extractLsb' 12 4).toNat * 4096 + (reg.extractLsb' 2 10).toNat * 4 + (reg.extractLsb' 0 2).toNat := by
  simp only [BitVec.extractLsb'_toNat, Nat.shiftRight_eq_div_pow]
  omega

/-- R70, R72: get_field reads the field's slice of the register. -/
theorem getField_eq_slice (F : Field) (reg : Half) :
    getField F reg = (reg.extractLsb' F.shift F.width).setWidth 16 := by
  apply eq_of_bits
  intro i hi
  rw [getField_getLsbD, BitVec.getLsbD_setWidth, BitVec.getLsbD_extractLsb']
  simp [hi]

/-- A slice of a slice is a slice. -/
theorem slice_of_slice (reg : Half) {start len start' len' : Nat} (h : start' + len' ≤ len) :
    (reg.extractLsb' start len).extractLsb' start' len' = reg.extractLsb' (start + start') len' := by
  apply eq_of_bits
  intro i hi
  simp [hi, show start' + i < len by omega, Nat.add_assoc]

/-- R51: the first byte is OCT and the upper four bits of DAC. -/
theorem firstByte_eq_fields (reg : Half) :
    firstByte reg = reg.extractLsb' 12 4 ++ (reg.extractLsb' 2 10).extractLsb' 6 4 := by
  rw [slice_of_slice reg (by omega), BitVec.extractLsb'_append_extractLsb'_eq_extractLsb'] <;> rfl

/-- R51: the second byte is the lower six bits of DAC and CNF. -/
theorem secondByte_eq_fields (reg : Half) :
    secondByte reg = (reg.extractLsb' 2 10).extractLsb' 0 6 ++ reg.extractLsb' 0 2 := by
  rw [slice_of_slice reg (by omega), BitVec.extractLsb'_append_extractLsb'_eq_extractLsb'] <;> rfl

/-- Settles O7: each field and each byte is a slice of the register. -/
theorem registerLayoutAndByteOrder : Obligations.RegisterLayoutAndByteOrder :=
  fun reg => ⟨toNat_eq_fields reg, getField_eq_slice .oct reg, getField_eq_slice .dac reg, getField_eq_slice .cnf reg,
    firstByte_eq_fields reg, secondByte_eq_fields reg, ofBytes_firstByte_secondByte reg,
    fun _ _ => ⟨BitVec.extractLsb'_append_eq_left, BitVec.extractLsb'_append_eq_right⟩⟩

end Sys2Proof.Machine
end

section
/-!
PROOFS. The register model's commands (40_register_model.md): what the two field operations do to a register, as slices of
it (R70 to R78), and how they act together (R79).
-/

namespace Sys2Proof.Machine

theorem Field.width_le (F : Field) : F.width ≤ 16 := by
  cases F <;> decide

/-- R53, R70: an operand as wide as its field fits the field. -/
theorem operand_fits {n : Nat} (v : BitVec n) {F : Field} (hn : n = F.width) : (v.setWidth 16).toNat < 2 ^ F.width := by
  subst hn
  rw [BitVec.toNat_setWidth_of_le F.width_le]
  exact v.isLt

/-- R73: set_field on OCT replaces REG[15:12]. -/
theorem setField_oct_eq (v : BitVec 4) (reg : Half) :
    setField .oct (v.setWidth 16) reg = v ++ reg.extractLsb' 0 12 := by
  apply eq_of_bits
  intro i hi
  rw [setField_getLsbD .oct _ reg (operand_fits v rfl), getLsbD_append_oct]
  simp only [Field.shift, Field.width]
  by_cases h : i < 12
  · simp [h, Nat.not_le.2 h]
  · simp [h, hi, Nat.le_of_not_lt h, show i - 12 < 16 by omega]

/-- R75: set_field on DAC replaces REG[11:2]. -/
theorem setField_dac_eq (v : BitVec 10) (reg : Half) :
    setField .dac (v.setWidth 16) reg = reg.extractLsb' 12 4 ++ v ++ reg.extractLsb' 0 2 := by
  apply eq_of_bits
  intro i hi
  rw [setField_getLsbD .dac _ reg (operand_fits v rfl), getLsbD_append_fields]
  simp only [Field.shift, Field.width]
  by_cases hcnf : i < 2
  · simp [hcnf, Nat.not_le.2 hcnf]
  by_cases hdac : i < 12
  · simp [hcnf, hdac, Nat.le_of_not_lt hcnf, show i - 2 < 10 by omega, show i - 2 < 16 by omega]
  · simp [hcnf, hdac, show ¬ i - 2 < 10 by omega, show i - 2 - 10 < 4 by omega, show 12 + (i - 2 - 10) = i by omega]

/-- R77: set_field on CNF replaces REG[1:0]. -/
theorem setField_cnf_eq (v : BitVec 2) (reg : Half) :
    setField .cnf (v.setWidth 16) reg = reg.extractLsb' 2 14 ++ v := by
  apply eq_of_bits
  intro i hi
  rw [setField_getLsbD .cnf _ reg (operand_fits v rfl), getLsbD_append_cnf]
  simp only [Field.shift, Field.width]
  by_cases h : i < 2
  · simp [h, hi]
  · simp [h, show i - 2 < 14 by omega, show 2 + (i - 2) = i by omega]

/-- R71, R60: a command whose own effect is a field setter's answers (OK, 0) and changes REG only. -/
theorem exec_of_effect_setField {i : Instr} {s : State} {F : Field} {v r : Half} (hrel : s.rel = false)
    (hi : effect i s = setFieldCommand F v s) (hr : setField F v s.reg = r) :
    exec i s = .next { s with reg := r, responses := ⟨.ok, 0#32⟩ :: s.responses } := by
  rw [exec_owned i s hrel, hi, setFieldCommand, hr]
  rfl

/-- R77: SETCNF v and SETCONF of the variant v do the same. -/
theorem effect_setconf_ofNumber (v : BitVec 2) (s : State) :
    effect (.setconf (OutputConf.ofNumber v)) s = effect (.setcnf v) s := by
  simp only [effect, OutputConf.number_ofNumber]

/-- Settles O12: each setter is set_field, which replaces the field's slice of REG. -/
theorem fieldSettersReplaceTheirFieldOnly : Obligations.FieldSettersReplaceTheirFieldOnly := by
  refine ⟨fun v => decode_encode (.setoct v), fun v => decode_encode (.setdac v), fun v => decode_encode (.setcnf v),
    fun s hrel => ⟨fun v => exec_of_effect_setField hrel rfl (setField_oct_eq v s.reg),
      fun v => exec_of_effect_setField hrel rfl (setField_dac_eq v s.reg),
      fun v => exec_of_effect_setField hrel rfl (setField_cnf_eq v s.reg), fun v => ?_⟩⟩
  rw [exec_owned _ s hrel, exec_owned _ s hrel, effect_setconf_ofNumber]

/-- R72, R60: a command whose own effect is a field getter's answers (OK, slice of REG) and changes nothing else. -/
theorem exec_of_effect_getField {i : Instr} {s : State} {F : Field} (hrel : s.rel = false)
    (hi : effect i s = getFieldCommand F s) :
    exec i s = .next { s with
      responses := ⟨.ok, (s.reg.extractLsb' F.shift F.width).setWidth 32⟩ :: s.responses } := by
  have hwidth : ¬ (16 < F.width ∧ 16 < 32) := fun h => absurd F.width_le (Nat.not_le.2 h.1)
  rw [exec_owned i s hrel, hi, getFieldCommand, getField_eq_slice, BitVec.setWidth_setWidth hwidth]
  rfl

/-- Settles O14: each getter is get_field, which reads the field's slice of REG. -/
theorem fieldGettersAnswerTheirField : Obligations.FieldGettersAnswerTheirField :=
  ⟨⟨decode_encode .getoct, decode_encode .getdac, decode_encode .getcnf⟩, fun _ hrel =>
    ⟨exec_of_effect_getField (F := .oct) hrel rfl, exec_of_effect_getField (F := .dac) hrel rfl,
      exec_of_effect_getField (F := .cnf) hrel rfl, OutputConf.number_ofNumber _⟩⟩

/-- R70: two different fields have no bit of REG in common. -/
theorem Field.disjoint {F G : Field} (h : F ≠ G) : F.shift + F.width ≤ G.shift ∨ G.shift + G.width ≤ F.shift := by
  revert h
  cases F <;> cases G <;> decide

/-- R70: a mask is WIDTH ones, shifted by SHIFT. -/
theorem Field.mask_eq (F : Field) : F.mask = BitVec.ofNat 16 ((2 ^ F.width - 1) <<< F.shift) := by
  cases F <;> rfl

/-- R70: the masks of two different fields are disjoint. -/
theorem Field.mask_and_mask {F G : Field} (h : F ≠ G) : F.mask &&& G.mask = 0#16 := by
  revert h
  cases F <;> cases G <;> decide

/-- R79(a): get_field after set_field gives the value. -/
theorem getField_setField_same {F : Field} {v : Half} (hv : v.toNat < 2 ^ F.width) (reg : Half) :
    getField F (setField F v reg) = v := by
  apply eq_of_bits
  intro i _
  rw [getField_getLsbD, setField_getLsbD F v reg hv]
  by_cases h : i < F.width
  · simp [h]
  · have hlt : v.toNat < 2 ^ i := hv.trans_le (Nat.pow_le_pow_right two_pos (Nat.le_of_not_lt h))
    have hbit : v.getLsbD i = false := Nat.testBit_lt_two_pow hlt
    simp [h, hbit]

/-- R79(b): set_field keeps the other fields. -/
theorem getField_setField_of_ne {F G : Field} (h : G ≠ F) {v : Half} (hv : v.toNat < 2 ^ F.width) (reg : Half) :
    getField G (setField F v reg) = getField G reg := by
  apply eq_of_bits
  intro i _
  rw [getField_getLsbD, getField_getLsbD, setField_getLsbD F v reg hv]
  by_cases hi : i < G.width
  · have houtside : ¬ (F.shift ≤ G.shift + i ∧ G.shift + i < F.shift + F.width) := by
      have := Field.disjoint h
      omega
    rw [if_neg houtside]
  · simp [hi]

/-- R50: a register is determined by its three fields. -/
theorem eq_of_getField {a b : Half} (h : ∀ F, getField F a = getField F b) : a = b := by
  have hslice (F : Field) : a.extractLsb' F.shift F.width = b.extractLsb' F.shift F.width := by
    have hF := h F
    rw [getField_eq_slice, getField_eq_slice] at hF
    simpa [BitVec.setWidth_setWidth_of_le _ F.width_le] using congrArg (BitVec.setWidth F.width) hF
  have hoct : a.extractLsb' 12 4 = b.extractLsb' 12 4 := hslice .oct
  have hdac : a.extractLsb' 2 10 = b.extractLsb' 2 10 := hslice .dac
  have hcnf : a.extractLsb' 0 2 = b.extractLsb' 0 2 := hslice .cnf
  apply BitVec.eq_of_toNat_eq
  rw [toNat_eq_fields a, toNat_eq_fields b, hoct, hdac, hcnf]

/-- R79(d): a second set_field of the same value changes nothing. -/
theorem setField_setField_same {F : Field} {v : Half} (hv : v.toNat < 2 ^ F.width) (reg : Half) :
    setField F v (setField F v reg) = setField F v reg := by
  apply eq_of_getField
  intro G
  by_cases hG : G = F
  · subst hG
    simp only [getField_setField_same hv]
  · simp only [getField_setField_of_ne hG hv]

/-- R79(c): set_field on two different fields, in either order. -/
theorem setField_comm {F G : Field} (h : F ≠ G) {v w : Half} (hv : v.toNat < 2 ^ F.width)
    (hw : w.toNat < 2 ^ G.width) (reg : Half) :
    setField F v (setField G w reg) = setField G w (setField F v reg) := by
  apply eq_of_getField
  intro K
  by_cases hF : K = F
  · subst hF
    simp only [getField_setField_same hv, getField_setField_of_ne h hw]
  · by_cases hG : K = G
    · subst hG
      simp only [getField_setField_same hw, getField_setField_of_ne hF hv]
    · simp only [getField_setField_of_ne hF hv, getField_setField_of_ne hG hw]

/-- Settles O16: read-back and independence bit by bit, and from them, since the three fields are all of REG, order
independence and idempotence; a field command's own effect always ends in OK. -/
theorem fieldOperationsAreIndependent : Obligations.FieldOperationsAreIndependent := by
  refine ⟨by decide, Field.mask_eq, fun _ _ => Field.mask_and_mask, by decide, fun F v reg hv =>
    ⟨getField_setField_same hv reg, fun G hG => getField_setField_of_ne hG hv reg, setField_setField_same hv reg⟩,
    fun F G v w reg h hv hw => setField_comm h hv hw reg, fun s v4 v10 v2 c i hrel hi => ⟨_, exec_owned i s hrel, ?_⟩⟩
  simp only [List.mem_cons, List.not_mem_nil, or_false] at hi
  rcases hi with rfl | rfl | rfl | rfl | rfl | rfl | rfl <;> rfl

end Sys2Proof.Machine
end

section
/-!
PROOFS. Octave lookup (41_frequency_encoder.md R91 to R94): a table that R91 allows covers the supported frequencies, so
lookup answers an error exactly outside them; lookup in the default table is a logarithm (R92).
-/

namespace Sys2Proof.Machine

/-- R91: an allowed table has sixteen bands. -/
theorem length_of_bandsWellFormed {t : List Band} (h : bandsWellFormed t = true) : t.length = 16 := by
  simp only [bandsWellFormed, bandsCount, Bool.and_eq_true, beq_iff_eq] at h
  exact h.1.1.1

/-- R91(a), (b): the first band of an allowed table starts at F_MIN, and the last one ends at F_MAX. -/
theorem ends_of_bandsWellFormed {t : List Band} (h : bandsWellFormed t = true) :
    (∃ b, t.head? = some b ∧ b.lo = 1039) ∧ ∃ b, t.getLast? = some b ∧ b.hi = 68030000 := by
  simp only [bandsWellFormed, bandsEnds, Bool.and_eq_true, beq_iff_eq, Option.map_eq_some_iff] at h
  exact h.1.1.2

theorem chained_of_bandsWellFormed {t : List Band} (h : bandsWellFormed t = true) : bandsChained t = true := by
  simp only [bandsWellFormed, Bool.and_eq_true] at h
  exact h.2

/-- R91(e): a chained table has no gap between its two ends. -/
theorem exists_band_of_chained (t : List Band) (h : bandsChained t = true) (f : Nat) {first last : Band}
    (hfirst : t.head? = some first) (hlast : t.getLast? = some last) (hlo : first.lo ≤ f) (hhi : f ≤ last.hi) :
    ∃ b ∈ t, b.lo ≤ f ∧ f ≤ b.hi := by
  induction t using bandsChained.induct generalizing first with
  | case1 => cases hfirst
  | case2 b =>
    cases hfirst
    cases hlast
    exact ⟨_, List.mem_singleton_self _, hlo, hhi⟩
  | case3 b c rest ih =>
    cases hfirst
    simp only [bandsChained, Band.follows, Bool.and_eq_true, decide_eq_true_eq] at h
    obtain ⟨⟨-, hnogap⟩, hrest⟩ := h
    by_cases hf : f ≤ b.hi
    · exact ⟨b, List.mem_cons_self, hlo, hf⟩
    · obtain ⟨d, hd, hin⟩ := ih hrest rfl (by rwa [List.getLast?_cons_cons] at hlast) (by omega)
      exact ⟨d, List.mem_cons_of_mem _ hd, hin⟩

/-- R93, R94: where no band of an allowed table contains f, the side of F_MIN decides the error. -/
theorem octaveLookup_of_outside {t : List Band} {f : Nat} (h : bandsWellFormed t = true)
    (hf : ¬ (1039 ≤ f ∧ f ≤ 68030000)) : octaveLookup t f = if f < 1039 then .tooLow else .tooHigh := by
  rcases octaveLookup_cases t f with ⟨i, b, hi, -⟩ | ⟨-, herr⟩
  · exact absurd (range_of_octaveLookup_band h hi) hf
  · obtain ⟨⟨b, hb, hlo⟩, -⟩ := ends_of_bandsWellFormed h
    simpa [hb, hlo] using herr

theorem octaveLookup_tooLow {t : List Band} {f : Nat} (h : bandsWellFormed t = true) (hf : f < 1039) :
    octaveLookup t f = .tooLow := by
  rw [octaveLookup_of_outside h (by omega), if_pos hf]

theorem octaveLookup_tooHigh {t : List Band} {f : Nat} (h : bandsWellFormed t = true) (hf : 68030000 < f) :
    octaveLookup t f = .tooHigh := by
  rw [octaveLookup_of_outside h (by omega), if_neg (by omega)]

/-- R93: every supported frequency has a first band in an allowed table. -/
theorem octaveLookup_supported {t : List Band} {f : Nat} (h : bandsWellFormed t = true) (hlo : 1039 ≤ f)
    (hhi : f ≤ 68030000) : ∃ i b, octaveLookup t f = .band i ∧ t[i]? = some b ∧ b.lo ≤ f ∧ f ≤ b.hi ∧
      ∀ j c, j < i → t[j]? = some c → ¬ (c.lo ≤ f ∧ f ≤ c.hi) := by
  rcases octaveLookup_cases t f with hband | ⟨hnone, -⟩
  · exact hband
  · obtain ⟨⟨first, hfirst, hmin⟩, last, hlast, hmax⟩ := ends_of_bandsWellFormed h
    obtain ⟨b, hb, hin⟩ := exists_band_of_chained t (chained_of_bandsWellFormed h) f hfirst hlast
      (hmin.trans_le hlo) (hhi.trans_eq hmax.symm)
    exact absurd hin (hnone b hb)

/-- Settles O17: an allowed table covers exactly the frequencies from F_MIN to F_MAX. -/
theorem lookupFindsTheFirstBandOfEveryTable : Obligations.LookupFindsTheFirstBandOfEveryTable :=
  fun _ _ h => ⟨octaveLookup_tooLow h, octaveLookup_tooHigh h, octaveLookup_supported h⟩

/-- R92: the rows of the default table; only the last one is cut off, at F_MAX. -/
theorem bands_getElem? {i : Nat} (hi : i < 16) :
    Config.bands[i]? = some ⟨1039 * 2 ^ i, min (1039 * 2 ^ (i + 1) - 1) 68030000⟩ := by
  have hrows : ∀ i : Fin 16,
      Config.bands[i.1]? = some ⟨1039 * 2 ^ i.1, min (1039 * 2 ^ (i.1 + 1) - 1) 68030000⟩ := by decide
  exact hrows ⟨i, hi⟩

/-- R92: lookup in the default table is the logarithm of f / F_MIN. -/
theorem octaveLookup_bands {f : Nat} (hlo : 1039 ≤ f) (hhi : f ≤ 68030000) :
    octaveLookup Config.bands f = .band (Nat.log2 (f / 1039)) := by
  have hne : f / 1039 ≠ 0 := by omega
  have hrow : Nat.log2 (f / 1039) < 16 := (Nat.log2_lt hne).2 (by omega)
  have hle := Nat.log2_self_le hne
  have hlt := Nat.lt_log2_self (n := f / 1039)
  exact octaveLookup_of_band f _ _ (bands_getElem? hrow) (by dsimp only; omega)

/-- R95: N is 2048 times the lower end of the octave's band in the default table. -/
theorem dacNumerator_eq (oct : Nat) : 2078 * 2 ^ (10 + oct) = 2048 * (1039 * 2 ^ oct) := by
  rw [pow_add]
  ring

/-- R92: d is 0 at a band's lower end. -/
theorem dacExact_lower_end (oct : Nat) : dacExact (1039 * 2 ^ oct) oct = 0 := by
  rw [dacExact, dacQuotient_eq, dacNumerator_eq, Nat.mul_div_cancel _ (by positivity)]
  rfl

/-- Settles O18: the table is read off row by row, and its rows are the octaves above F_MIN. -/
theorem defaultTableLookupIsTheLogarithm : Obligations.DefaultTableLookupIsTheLogarithm := by
  refine ⟨fun i hi => ?_, rfl, rfl, by decide, by decide, fun i _ => ?_, fun f => octaveLookup_bands⟩
  · have hcut : 2 ^ (i + 1) ≤ 2 ^ 15 := Nat.pow_le_pow_right two_pos hi
    rw [bands_getElem? (by omega), min_eq_left (by omega)]
  · rw [dacCompute, dacExact_lower_end]
    exact BitVec.ofInt_ofNat 10 0

end Sys2Proof.Machine
end

section
/-!
PROOFS. The DAC value (41_frequency_encoder.md R95 to R98): d is the chip formula's real solution rounded up, it stays
between 0 and 1024 in the default table, and its low 10 bits are d except at 1024.
-/

namespace Sys2Proof.Machine

/-- Settles O22: 2048 - d is the quotient, which integer division bounds on both sides. -/
theorem exactDacIsTheLeastAtOrAboveTheRequest : Obligations.ExactDacIsTheLeastAtOrAboveTheRequest := by
  intro f oct hf
  obtain ⟨hle, hlt⟩ := dacQuotient_spec f oct hf
  have hd : 2048 - dacExact f oct = dacQuotient f oct := sub_sub_cancel _ _
  have hd' : 2048 - (dacExact f oct - 1) = dacQuotient f oct + 1 := by rw [← hd]; ring
  rw [hd, hd']
  exact ⟨by exact_mod_cast hle, by exact_mod_cast hlt⟩

/-- R98: the DAC value is d modulo 1024. -/
theorem dacCompute_toNat (f oct : Nat) : ((dacCompute f oct).toNat : Int) = dacExact f oct % 1024 := by
  rw [dacCompute, BitVec.toNat_ofInt]
  exact Int.toNat_of_nonneg (Int.emod_nonneg _ (by decide))

/-- R95, R97: in the octave of the lower end L, the quotient lies in 1024 to 2048, is 2048 at L only, and is 1024
exactly above the threshold. -/
theorem quotient_in_octave {L f : Nat} (hlo : L ≤ f) (hhi : f < 2 * L) :
    1024 ≤ 2048 * L / f ∧ 2048 * L / f ≤ 2048 ∧ (2048 * L / f = 2048 ↔ f = L) ∧
      (2048 * L / f = 1024 ↔ 2048 * L / 1025 < f) := by
  have hf : 0 < f := by omega
  have hge : 1024 ≤ 2048 * L / f := (Nat.le_div_iff_mul_le hf).2 (by omega)
  have hle : 2048 * L / f ≤ 2048 := Nat.div_le_of_le_mul (by omega)
  have htop : 2048 ≤ 2048 * L / f ↔ 2048 * f ≤ 2048 * L := Nat.le_div_iff_mul_le hf
  have hwrap : 2048 * L / f < 1025 ↔ 2048 * L < 1025 * f := Nat.div_lt_iff_lt_mul hf
  omega

/-- Settles O21: N is 2048 times the band's lower end, so the quotient is that of the band's octave. -/
theorem dacWrapsExactlyAtTheTopOfEachBand : Obligations.DacWrapsExactlyAtTheTopOfEachBand := by
  intro i b f hb hlo hhi
  have hi : i < 16 := (List.getElem?_eq_some_iff.1 hb).1
  obtain rfl := Option.some.inj ((bands_getElem? hi).symm.trans hb)
  dsimp only at hlo hhi ⊢
  have hoctave : f < 2 * (1039 * 2 ^ i) := by
    have hpos := Nat.two_pow_pos i
    omega
  obtain ⟨hge, hle, hbottom, htop⟩ := quotient_in_octave hlo hoctave
  have hd : dacExact f i = 2048 - (2048 * (1039 * 2 ^ i) / f : Nat) := by
    rw [dacExact, dacQuotient_eq, dacNumerator_eq]
  have hmod := dacCompute_toNat f i
  rw [Nat.shiftLeft_eq, dacNumerator_eq, ← BitVec.toNat_inj, BitVec.toNat_ofNat]
  omega

end Sys2Proof.Machine
end

section
/-!
PROOFS. SETFREQ and GETFREQ (41_frequency_encoder.md R99 to R102): each outcome of SETFREQ once, as the next state, and
what the packed register holds.
-/

namespace Sys2Proof.Machine

/-- Settles O15: the answer is FREQ, which a change of REG leaves. -/
theorem getfreqAnswersTheCachedFrequency : Obligations.GetfreqAnswersTheCachedFrequency :=
  ⟨decode_encode .getfreq, fun s r hrel => exec_owned .getfreq { s with reg := r } hrel⟩

/-- R50: the slices of a register that is put together from its fields. -/
theorem slices_append_fields (a : BitVec 4) (b : BitVec 10) (c : BitVec 2) :
    (a ++ b ++ c : Half).extractLsb' 12 4 = a ∧ (a ++ b ++ c : Half).extractLsb' 2 10 = b ∧
      (a ++ b ++ c : Half).extractLsb' 0 2 = c :=
  ⟨(BitVec.extractLsb'_append_eq_of_le (by decide)).trans BitVec.extractLsb'_append_eq_left,
    (BitVec.extractLsb'_append_eq_of_le (by decide)).trans BitVec.extractLsb'_append_eq_right,
    BitVec.extractLsb'_append_eq_right⟩

/-- R99: the packed register is the octave, the DAC value and the old CNF. -/
theorem packFreq_eq {oct : Nat} (hoct : oct < 16) (dac : BitVec 10) (reg : Half) :
    packFreq oct dac reg = BitVec.ofNat 4 oct ++ dac ++ reg.extractLsb' 0 2 := by
  have hfit : BitVec.ofNat 16 oct = (BitVec.ofNat 4 oct).setWidth 16 := by
    apply BitVec.eq_of_toNat_eq
    simp only [BitVec.toNat_setWidth, BitVec.toNat_ofNat]
    omega
  have hcnf : (BitVec.ofNat 4 oct ++ reg.extractLsb' 0 12 : Half).extractLsb' 0 2 = reg.extractLsb' 0 2 :=
    (BitVec.extractLsb'_append_eq_of_add_le (by decide)).trans (slice_of_slice reg (by decide))
  have hkeep : (BitVec.ofNat 4 oct ++ reg.extractLsb' 0 12 : Half).extractLsb' 12 4 = BitVec.ofNat 4 oct :=
    BitVec.extractLsb'_append_eq_left
  rw [packFreq, hfit, setField_oct_eq, setField_dac_eq, hcnf, hkeep]

/-- R91, R93: the octave lookup answers fits OCT. -/
theorem octaveLookup_band_lt {t : List Band} {f i : Nat} (h : bandsWellFormed t = true)
    (hi : octaveLookup t f = .band i) : i < 16 := by
  obtain ⟨hlo, hhi⟩ := range_of_octaveLookup_band h hi
  obtain ⟨j, b, hj, hb, -⟩ := octaveLookup_supported h hlo hhi
  obtain rfl : i = j := Octave.band.inj (hi.symm.trans hj)
  exact (List.getElem?_eq_some_iff.1 hb).1.trans_eq (length_of_bandsWellFormed h)

section

variable {s : State} {f : Word}

/-- R131: SETFREQ below F_MIN. -/
theorem exec_setfreq_tooLow (hp : s.params.wellFormed = true) (hrel : s.rel = false) (hf : f.toNat < 1039) :
    exec (.setfreq f) s = .next { s with responses := ⟨.tooLow, 0#32⟩ :: s.responses } := by
  simp only [exec_owned _ s hrel, effect, setFreqCommand, octaveLookup_tooLow (Params.bands_wellFormed hp) hf]
  rfl

/-- R132: SETFREQ above F_MAX. -/
theorem exec_setfreq_tooHigh (hp : s.params.wellFormed = true) (hrel : s.rel = false) (hf : 68030000 < f.toNat) :
    exec (.setfreq f) s = .next { s with responses := ⟨.tooHigh, 0#32⟩ :: s.responses } := by
  simp only [exec_owned _ s hrel, effect, setFreqCommand, octaveLookup_tooHigh (Params.bands_wellFormed hp) hf]
  rfl

/-- R99: SETFREQ with the octave i. -/
theorem exec_setfreq_band {i : Nat} {r : Half} (hp : s.params.wellFormed = true) (hrel : s.rel = false)
    (hi : octaveLookup s.params.bands f.toNat = .band i)
    (hr : r = BitVec.ofNat 4 i ++ dacCompute f.toNat i ++ s.reg.extractLsb' 0 2) :
    exec (.setfreq f) s = .next { s with
      reg := r, freq := f, responses := ⟨.ok, r.setWidth 32⟩ :: s.responses } := by
  have hi16 := octaveLookup_band_lt (Params.bands_wellFormed hp) hi
  simp only [exec_owned _ s hrel, effect, setFreqCommand, hi, packFreq_eq hi16, ← hr]
  rfl

end

/-- Settles O19: the first band that contains f is the one lookup answers. -/
theorem setfreqEncodesTheFrequency : Obligations.SetfreqEncodesTheFrequency := by
  refine ⟨fun f => decode_encode (.setfreq f), rfl, rfl, fun s f hp hrel =>
    ⟨exec_setfreq_tooLow hp hrel, exec_setfreq_tooHigh hp hrel, fun i b hb hlo hhi hfirst => ⟨_, rfl, ?_⟩⟩⟩
  refine exec_setfreq_band hp hrel (octaveLookup_of_first _ _ _ b hb ⟨hlo, hhi⟩ hfirst) ?_
  rw [dacCompute, dacExact, dacQuotient_eq]

/-- R74: the octave as GETOCT's data. -/
theorem setWidth_ofNat_oct {i : Nat} (hi : i < 16) : (BitVec.ofNat 4 i).setWidth 32 = BitVec.ofNat 32 i := by
  apply BitVec.eq_of_toNat_eq
  simp only [BitVec.toNat_setWidth, BitVec.toNat_ofNat]
  omega

/-- R76, R98: the DAC value as GETDAC's data. -/
theorem setWidth_dacCompute (f oct : Nat) :
    (dacCompute f oct).setWidth 32 = BitVec.ofInt 32 (dacExact f oct % 1024) := by
  rw [← dacCompute_toNat, BitVec.ofInt_natCast, BitVec.ofNat_toNat]

/-- Settles O20: the three outcomes of SETFREQ, and in the middle one the getters read the packed fields. -/
theorem setfreqReadsBackAndFailsCleanly : Obligations.SetfreqReadsBackAndFailsCleanly := by
  intro s f hp hrel
  by_cases hlo : f.toNat < 1039
  · exact ⟨_, exec_setfreq_tooLow hp hrel hlo, rfl, by omega, fun _ => ⟨rfl, rfl, rfl⟩, by omega⟩
  by_cases hhi : 68030000 < f.toNat
  · exact ⟨_, exec_setfreq_tooHigh hp hrel hhi, rfl, by omega, by omega, fun _ => ⟨rfl, rfl, rfl⟩⟩
  have hbands := Params.bands_wellFormed hp
  obtain ⟨i, -, hi, -⟩ := octaveLookup_supported hbands (Nat.le_of_not_lt hlo) (Nat.le_of_not_lt hhi)
  have hi16 := octaveLookup_band_lt hbands hi
  obtain ⟨hoct, hdac, hcnf⟩ :=
    slices_append_fields (BitVec.ofNat 4 i) (dacCompute f.toNat i) (s.reg.extractLsb' 0 2)
  refine ⟨_, exec_setfreq_band hp hrel hi rfl, hcnf, fun _ _ => ⟨rfl, rfl, i, _, _, hi, hi16,
    exec_of_effect_getField (F := .oct) hrel rfl, ?_, exec_of_effect_getField (F := .dac) hrel rfl, ?_⟩,
    by omega, by omega⟩
  · simp only [Field.shift, Field.width, hoct, setWidth_ofNat_oct hi16, List.head?_cons]
  · simp only [Field.shift, Field.width, hdac, setWidth_dacCompute, List.head?_cons]

end Sys2Proof.Machine
end

section
/-!
PROOFS. The device session's commands (42_device_session.md R111 to R122), each outcome as the next state. Where an answer
decides the outcome, the operation's own lemma (busWrite_cases, busRead_eq, lineSet_cases) says what it leaves and settle
says how the command ends.
-/

namespace Sys2Proof.Machine

/-- Settles O13: SETCONF is the setter of CNF at the variant's number, and GETCNF reads that field's slice. -/
theorem setconfWritesTheVariantNumber : Obligations.SetconfWritesTheVariantNumber := by
  refine ⟨⟨rfl, rfl, rfl, rfl⟩, OutputConf.ofNumber_number, OutputConf.number_ofNumber,
    fun c => decode_encode (.setconf c), fun s c hrel =>
    ⟨exec_of_effect_setField hrel rfl (setField_cnf_eq c.number s.reg), fun hcnf => ?_⟩⟩
  rw [← hcnf]
  exact exec_of_effect_getField (F := .cnf) hrel rfl

/-- Settles O23: the write carries REG's two bytes, which are REG again in the target when answered Ok. -/
theorem wroutStoresTheRegister : Obligations.WroutStoresTheRegister := by
  refine ⟨decode_encode .wrout, rfl, fun s hrel => ?_⟩
  have hexec := exec_owned .wrout s hrel
  obtain ⟨d, hwrite, hleft⟩ := busWrite_cases s.addr (firstByte s.reg) (secondByte s.reg) s
  simp only [effect, hwrite] at hexec
  refine ⟨fun hok => ?_, fun e herr => ⟨d, ?_⟩⟩
  · obtain rfl : d = s.reg := (hleft hok).trans (ofBytes_firstByte_secondByte s.reg)
    rwa [hok] at hexec
  · rwa [herr] at hexec

/-- Settles O24: on Ok REG is made of the two bytes of DEVREG, which are DEVREG; on Err nothing is loaded. -/
theorem refreshLoadsTheRegister : Obligations.RefreshLoadsTheRegister := by
  refine ⟨decode_encode .refresh, rfl, fun s hrel => ?_⟩
  have hexec := exec_owned .refresh s hrel
  simp only [effect, busRead_eq] at hexec
  refine ⟨fun hok => ?_, fun e herr => ?_⟩
  · simp only [readAnswer_ok s hok, settle_ok, ofBytes_firstByte_secondByte] at hexec
    exact hexec
  · rwa [readAnswer_err s e herr] at hexec

/-- R118, R119: OEN and ODIS are one LineSet, each with its level. -/
theorem effect_lineCommand {i : Instr} {level : Level} (h : (i, level) ∈ [(Instr.oen, Level.high), (.odis, .low)])
    (s : State) : effect i s = settle .lineError (fun _ t => t) (lineSet level s) := by
  obtain h | h := List.mem_pair.1 h <;> cases h <;> rfl

/-- Settles O25: LineSet leaves its level on Ok and some level on Err, and settle gives the response. -/
theorem oenAndOdisDriveTheLine : Obligations.OenAndOdisDriveTheLine := by
  refine ⟨decode_encode .oen, decode_encode .odis, rfl, fun s i level hrel hi => ?_⟩
  have hexec := exec_owned i s hrel
  obtain ⟨l, hset, hleft⟩ := lineSet_cases level s
  rw [effect_lineCommand hi, hset] at hexec
  refine ⟨fun hok => ?_, fun e herr => ⟨l, ?_⟩⟩
  · obtain rfl : l = level := hleft hok
    rwa [hok] at hexec
  · rwa [herr] at hexec

/-- Settles O26: FREE runs its own effect since REL = 0, and with REL = 1 after it every command is RELEASED. -/
theorem freeReleasesTheBus : Obligations.FreeReleasesTheBus :=
  ⟨decode_encode .free, fun s hrel => ⟨_, exec_owned .free s hrel, rfl, rfl, fun i => exec_released i _ rfl⟩⟩

end Sys2Proof.Machine
end

section
/-!
PROOFS. How a command ends (60_exceptions.md R137, R139, R146): with one response in a status, or never. The status is
worked out once from what the octave lookup or the environment answers; the row of R137 and the own status of R139 are
then compared with it.
-/

namespace Sys2Proof.Machine

/-- How a command led from s to t: with one new response in the status given, or, for none, with no response and the
command in progress (R146). -/
def EndsWith (s t : State) : Option Status → Prop
  | some st => (∃ d, t.responses = ⟨st, d⟩ :: s.responses) ∧ t.hung = s.hung
  | none => t.responses = s.responses ∧ t.hung = true

theorem EndsWith.lastStatus {s t : State} {st : Status} (h : EndsWith s t (some st)) : t.lastStatus = some st := by
  obtain ⟨⟨d, hd⟩, -⟩ := h
  simp [State.lastStatus, hd]

/-- The status an environment operation's answer gives a command (R133, R134), or none. -/
def answerStatus {α : Type} (error : Status) : Option (Answer Word α) → Option Status
  | some (.ok _) => some .ok
  | some (.err _) => some error
  | none => none

theorem eq_none_of_answerStatus {α : Type} {error : Status} {a : Option (Answer Word α)}
    (h : answerStatus error a = none) : a = none := by
  match a with
  | some (.ok _) | some (.err _) => cases h
  | none => rfl

/-- A read gives its command the status the transport's answer gives a write (R33, R34). -/
theorem answerStatus_readAnswer (error : Status) (s : State) :
    answerStatus error s.readAnswer = answerStatus error s.nextBusAnswer := by
  match h : s.nextBusAnswer with
  | some (.ok ()) => rw [readAnswer_ok s h]; rfl
  | some (.err e) => rw [readAnswer_err s e h]; rfl
  | none => rw [readAnswer_none s h]; rfl

/-- The status octave lookup gives SETFREQ (R94, R99). -/
def octaveStatus : Octave → Status
  | .band _ => .ok
  | .tooLow => .tooLow
  | .tooHigh => .tooHigh

/-- How a command's own effect ends: SETFREQ as lookup in the table at hand says, a command with an operation as its
answer says, every other command in OK. -/
def effectStatus (i : Instr) (s : State) : Option Status :=
  match i with
  | .setfreq f => some (octaveStatus (octaveLookup s.params.bands f.toNat))
  | .wrout | .refresh => answerStatus .busError s.nextBusAnswer
  | .oen | .odis => answerStatus .lineError s.nextLineAnswer
  | .setoct _ | .getoct | .setdac _ | .getdac | .setcnf _ | .getcnf | .getfreq | .setconf _ | .free => some .ok

theorem settle_endsWith {α : Type} {error : Status} {onOk : α → State → State} (a : Option (Answer Word α))
    {s t : State} (hresponses : t.responses = s.responses) (hhung : t.hung = s.hung)
    (hok : ∀ x, (onOk x t).responses = s.responses ∧ (onOk x t).hung = s.hung) :
    EndsWith s (settle error onOk (a, t)) (answerStatus error a) := by
  match a with
  | some (.ok x) => exact ⟨⟨0#32, congrArg _ (hok x).1⟩, (hok x).2⟩
  | some (.err e) => exact ⟨⟨e, congrArg _ hresponses⟩, hhung⟩
  | none => exact ⟨hresponses, rfl⟩

theorem setFreqCommand_endsWith (f : Word) (s : State) :
    EndsWith s (setFreqCommand f s) (some (octaveStatus (octaveLookup s.params.bands f.toNat))) := by
  unfold setFreqCommand
  cases octaveLookup s.params.bands f.toNat <;> exact ⟨⟨_, rfl⟩, rfl⟩

/-- Every command's own effect ends as effectStatus says. -/
theorem effect_endsWith (i : Instr) (s : State) : EndsWith s (effect i s) (effectStatus i s) := by
  cases i with
  | setfreq f => exact setFreqCommand_endsWith f s
  | wrout | oen | odis => exact settle_endsWith _ rfl rfl fun _ => ⟨rfl, rfl⟩
  | refresh =>
    rw [effectStatus, ← answerStatus_readAnswer]
    exact settle_endsWith _ rfl rfl fun _ => ⟨rfl, rfl⟩
  | setoct | getoct | setdac | getdac | setcnf | getcnf | getfreq | setconf | free => exact ⟨⟨_, rfl⟩, rfl⟩

/-- R137 for an ending: its status is in the row, or the row's command is one with an operation, never answered. -/
def EndingWithinRow (m : Mnemonic) : Option Status → Prop
  | some st => st ∈ mayAnswer m
  | none => actsOutside m = true

theorem answerStatus_withinRow {α : Type} {m : Mnemonic} {error : Status} (hok : Status.ok ∈ mayAnswer m)
    (herror : error ∈ mayAnswer m) (hacts : actsOutside m = true) (a : Option (Answer Word α)) :
    EndingWithinRow m (answerStatus error a) := by
  match a with
  | some (.ok _) => exact hok
  | some (.err _) => exact herror
  | none => exact hacts

theorem octaveStatus_mem_mayAnswer (o : Octave) : octaveStatus o ∈ mayAnswer .setfreq := by
  cases o <;> simp [octaveStatus, mayAnswer]

/-- R137: every command's own effect ends within its row. -/
theorem effectStatus_withinRow (i : Instr) (s : State) : EndingWithinRow i.mnemonic (effectStatus i s) := by
  cases i with
  | setfreq f => exact octaveStatus_mem_mayAnswer _
  | wrout | refresh => exact answerStatus_withinRow (error := .busError) (by decide) (by decide) rfl _
  | oen | odis => exact answerStatus_withinRow (error := .lineError) (by decide) (by decide) rfl _
  | setoct | getoct | setdac | getdac | setcnf | getcnf | getfreq | setconf | free => exact List.mem_cons_self

/-- R136: RELEASED is in every row. -/
theorem released_mem_mayAnswer (m : Mnemonic) : Status.released ∈ mayAnswer m := by
  cases m <;> decide

/-- R137: every command, released or not, ends within its row. -/
theorem exec_endsWithinRow (i : Instr) (s : State) :
    ∃ t ending, exec i s = .next t ∧ EndsWith s t ending ∧ EndingWithinRow i.mnemonic ending := by
  cases hrel : s.rel with
  | true => exact ⟨_, some .released, exec_released i s hrel, ⟨⟨_, rfl⟩, rfl⟩, released_mem_mayAnswer _⟩
  | false => exact ⟨_, _, exec_owned i s hrel, effect_endsWith i s, effectStatus_withinRow i s⟩

/-- A state in which commands end in the status st: REL for RELEASED, and otherwise the environment's answers. -/
def stateAnswering (st : Status) : State :=
  { State.reset with
    rel := st == .released
    busAnswers := [some (if st = .busError then .err 0#32 else .ok ())]
    lineAnswers := [some (if st = .lineError then .err 0#32 else .ok ())] }

/-- A frequency for which SETFREQ ends in the status st, where that is one of its own. -/
def operandAnswering : Status → Word
  | .tooLow => 1038#32
  | .tooHigh => 68030001#32
  | .ok | .busError | .lineError | .illegal | .released => 1039#32

/-- R137: each status of a row but RELEASED is how a command of the row ends in a state that is not released. -/
theorem effectStatus_stateAnswering (m : Mnemonic) : ∀ st ∈ mayAnswer m, st ≠ .released →
    effectStatus (m.build (operandAnswering st)) (stateAnswering st) = some st := by
  cases m <;> decide

/-- R137: each status of a row is answered by a command of the row. -/
theorem exists_exec_lastStatus {m : Mnemonic} {st : Status} (hst : st ∈ mayAnswer m) :
    ∃ t, exec (m.build (operandAnswering st)) (stateAnswering st) = .next t ∧ t.lastStatus = some st := by
  by_cases hreleased : st = .released
  · exact ⟨_, exec_released _ _ (by simp [stateAnswering, hreleased]), by rw [hreleased]; rfl⟩
  · have hends := effect_endsWith (m.build (operandAnswering st)) (stateAnswering st)
    rw [effectStatus_stateAnswering m st hst hreleased] at hends
    exact ⟨_, exec_owned _ _ (by simp [stateAnswering, hreleased]), hends.lastStatus⟩

/-- Settles O39: a command's ending is within its row, a state is built for each status, and step answers a reserved
word by itself. -/
theorem commandsAnswerWithinTheirRow : Obligations.CommandsAnswerWithinTheirRow := by
  refine ⟨fun i s => ?_, fun m st hst => ?_, fun s t w rest hh hin hw hstep => ?_⟩
  · obtain ⟨t, ending, hexec, hends, hrow⟩ := exec_endsWithinRow i s
    match ending with
    | some st =>
      obtain ⟨⟨d, hresponses⟩, hhung⟩ := hends
      exact ⟨t, hexec, .inl ⟨⟨st, d⟩, hresponses, hrow, hhung⟩⟩
    | none => exact ⟨t, hexec, .inr ⟨hends.1, hends.2, hrow⟩⟩
  · obtain ⟨t, hexec, hlast⟩ := exists_exec_lastStatus hst
    exact ⟨_, _, t, m.mnemonic_build _, hexec, hlast⟩
  · cases (reservedWordIsAnsweredIllegal.2 s w rest hh hin hw).symm.trans hstep
    rfl

/-- R139(3) is what octave lookup answers, in every table R91 allows. -/
theorem octaveStatus_octaveLookup {t : List Band} (h : bandsWellFormed t = true) (f : Nat) :
    octaveStatus (octaveLookup t f) =
      if f < 1039 then .tooLow else if 68030000 < f then .tooHigh else .ok := by
  split
  · next hlow => rw [octaveLookup_tooLow h hlow]; rfl
  · next hlow =>
    split
    · next hhigh => rw [octaveLookup_tooHigh h hhigh]; rfl
    · next hhigh =>
      obtain ⟨i, -, hi, -⟩ := octaveLookup_supported h (not_lt.1 hlow) (not_lt.1 hhigh)
      rw [hi]; rfl

/-- R139(4), R133: the transport's answer decides the own status of WROUT and REFRESH. -/
theorem ownStatus_bus {i : Instr} (hi : i ∈ [Instr.wrout, .refresh]) (s : State) :
    ownStatus i s = answerStatus .busError s.nextBusAnswer := by
  have hrow : ownStatus i s = ownStatus .wrout s := by obtain rfl | rfl := List.mem_pair.1 hi <;> rfl
  rw [hrow, ownStatus]
  match s.nextBusAnswer with
  | some (.ok _) | some (.err _) | none => rfl

/-- R139(4), R134: the line's answer decides the own status of OEN and ODIS. -/
theorem ownStatus_line {i : Instr} (hi : i ∈ [Instr.oen, .odis]) (s : State) :
    ownStatus i s = answerStatus .lineError s.nextLineAnswer := by
  have hrow : ownStatus i s = ownStatus .oen s := by obtain rfl | rfl := List.mem_pair.1 hi <;> rfl
  rw [hrow, ownStatus]
  match s.nextLineAnswer with
  | some (.ok _) | some (.err _) | none => rfl

/-- R139(3), (4): the own status is how the command's own effect ends, for all parameters R7 and R91 allow. -/
theorem effectStatus_eq_ownStatus (i : Instr) {s : State} (hp : s.params.wellFormed = true) :
    effectStatus i s = ownStatus i s := by
  cases i with
  | setfreq f =>
    rw [effectStatus, octaveStatus_octaveLookup (Params.bands_wellFormed hp), ownStatus, apply_ite some,
      apply_ite some]
  | wrout | refresh => exact (ownStatus_bus (by simp) s).symm
  | oen | odis => exact (ownStatus_line (by simp) s).symm
  | setoct | getoct | setdac | getdac | setcnf | getcnf | getfreq | setconf | free => rfl

/-- The moves to come have no part in how a command ends. -/
theorem effectStatus_setInputs (i : Instr) (s : State) (l : List Input) :
    effectStatus i (s.setInputs l) = effectStatus i s := by
  cases i <;> rfl

/-- Settles O11: step answers a reserved word before it looks at REL, exec looks at REL before the command's own
effect, and that effect ends in the own status. -/
theorem checksAreMadeInTheFixedOrder : Obligations.ChecksAreMadeInTheFixedOrder := by
  intro s w rest hp hh hin
  cases hd : decode w with
  | reserved r => exact ⟨_, step_reserved hh hin hd, fun _ => rfl, nofun, nofun⟩
  | command i =>
    have hlegal : reservedWord w = true → False :=
      Bool.eq_false_iff.1 ((decodeReservesExactlyTheReservedWords w).2.2 ⟨i, hd⟩)
    have hstep := step_command hh hin hd
    cases hrel : s.rel with
    | true =>
      exact ⟨_, hstep.trans (exec_released i (s.setInputs rest) hrel), fun hw => (hlegal hw).elim,
        fun _ _ _ => rfl, nofun⟩
    | false =>
      refine ⟨_, hstep.trans (exec_owned i (s.setInputs rest) hrel), fun hw => (hlegal hw).elim, nofun, ?_⟩
      rintro _ ⟨⟩ - st hst
      have hends := effect_endsWith i (s.setInputs rest)
      rw [effectStatus_setInputs, effectStatus_eq_ownStatus i hp, hst] at hends
      exact hends.lastStatus

end Sys2Proof.Machine
end

section
/-!
PROOFS. A command that is never answered (60_exceptions.md R146): what it leaves, that nothing but a reset ends it
(70_reset_and_hazards.md R169), and what the reset leaves (R159); and a command in a released PORE (R136).
-/

namespace Sys2Proof.Machine

/-- R146, R118, R119: a line command that is never answered leaves some level and stays in progress. -/
theorem lineCommand_unanswered {s : State} (h : s.nextLineAnswer = none) (level : Level) :
    ∃ l, settle .lineError (fun _ t => t) (lineSet level s) = { s with
      line := l, hung := true, activity := .lineSet level none :: s.activity
      lineAnswers := s.lineAnswers.tail, draws := s.draws + 1 } := by
  obtain ⟨l, hset, -⟩ := lineSet_cases level s
  rw [hset, h]
  exact ⟨l, rfl⟩

/-- R146: a command that is never answered leaves what its one operation did to the environment, and stays in
progress. -/
theorem effect_unanswered {i : Instr} {s : State} (h : ownStatus i s = none) :
    ∃ e d l bus line, e.unanswered = true ∧
      (writesDevreg i.mnemonic = false → d = s.devreg) ∧ (writesLine i.mnemonic = false → l = s.line) ∧
      effect i s = { s with
        devreg := d, line := l, hung := true, activity := e :: s.activity
        busAnswers := bus, lineAnswers := line, draws := s.draws + 1 } := by
  cases i with
  | wrout =>
    have hnone := eq_none_of_answerStatus ((ownStatus_bus (by simp) s).symm.trans h)
    obtain ⟨d, hwrite, -⟩ := busWrite_cases s.addr (firstByte s.reg) (secondByte s.reg) s
    simp only [effect, hwrite, hnone]
    exact ⟨_, d, _, _, _, rfl, nofun, fun _ => rfl, rfl⟩
  | refresh =>
    have hnone := eq_none_of_answerStatus ((ownStatus_bus (by simp) s).symm.trans h)
    simp only [effect, busRead_eq, readAnswer_none s hnone]
    exact ⟨.busRead s.addr none, _, _, _, _, rfl, fun _ => rfl, fun _ => rfl, rfl⟩
  | oen | odis =>
    have hnone := eq_none_of_answerStatus ((ownStatus_line (by simp) s).symm.trans h)
    obtain ⟨l, heq⟩ := lineCommand_unanswered hnone _
    exact ⟨_, _, l, _, _, rfl, fun _ => rfl, nofun, heq⟩
  | setfreq f =>
    rw [ownStatus] at h
    split_ifs at h
  | setoct | getoct | setdac | getdac | setcnf | getcnf | getfreq | setconf | free => cases h

/-- Settles O31: exec runs the command's own effect, which effect_unanswered gives as a whole state. -/
theorem unansweredOperationHangsTheCommand : Obligations.UnansweredOperationHangsTheCommand := by
  intro i s hrel hnone
  obtain ⟨e, d, l, bus, line, he, hd, hl, heq⟩ := effect_unanswered hnone
  exact ⟨_, (exec_owned i s hrel).trans (congrArg _ heq), rfl, rfl, rfl, rfl, rfl, rfl, rfl, ⟨e, rfl, he⟩, hd, hl⟩

/-- What the moves other than a reset may change of a state s with a command in progress: the moves to come, which hold
no reset, and DEVREG (by another master). -/
structure HungFrom (s t : State) : Prop where
  noReset : t.inputs.all Input.notReset = true
  frame : t = { s with inputs := t.inputs, devreg := t.devreg }

/-- R146, R173: no command word is accepted during a command, so only another master's move is left. -/
theorem step_hungFrom {s t : State} (hhung : s.hung = true) (hin : s.inputs.all Input.notReset = true)
    (h : step s = .next t) : HungFrom s t := by
  rcases step_cases s t h with ⟨-, rfl⟩ | ⟨w, rest, i, -, hh, -⟩ | ⟨w, rest, r, -, hh, -⟩ | ⟨adrSel, rest, hs, -⟩ |
    ⟨v, rest, hs, rfl⟩
  · exact ⟨hin, rfl⟩
  · exact absurd (hh.symm.trans hhung) nofun
  · exact absurd (hh.symm.trans hhung) nofun
  · simp [hs, Input.notReset] at hin
  · exact ⟨by simpa [hs, Input.notReset] using hin, rfl⟩

theorem HungFrom.trans {s t u : State} (hst : HungFrom s t) (htu : HungFrom t u) : HungFrom s u :=
  ⟨htu.noReset, by rw [htu.frame, hst.frame]⟩

theorem HungFrom.hung {s t : State} (h : HungFrom s t) : t.hung = s.hung := by rw [h.frame]

/-- Settles O32: every step of a run without a reset keeps HungFrom of the run's first state. -/
theorem onlyResetEndsAHang : Obligations.OnlyResetEndsAHang := by
  intro k s t hhung hin hrun
  have hstep (u v : State) (hu : HungFrom s u) (huv : step u = .next v) : HungFrom s v :=
    hu.trans (step_hungFrom (hu.hung.trans hhung) hu.noReset huv)
  have hkept : HungFrom s t := run_induction (HungFrom s) hstep k s t ⟨hin, rfl⟩ hrun
  rw [hkept.frame]
  exact ⟨hhung, rfl, rfl, rfl, rfl, rfl, rfl⟩

/-- Settles O28: with a command in progress only the second case of hostReset_cases is left. -/
theorem hostResetEndsAHungCommand : Obligations.HostResetEndsAHungCommand := by
  intro s adrSel rest hhung hin
  obtain ⟨l, ⟨hh, -⟩ | ⟨-, d, heq⟩⟩ := hostReset_cases adrSel (s.setInputs rest)
  · exact absurd (hh.symm.trans hhung) nofun
  · exact ⟨d, l, (step_reset hin).trans (congrArg _ heq)⟩

/-- Settles O10: the check of REL comes before the command's own effect, and a response is all it adds. -/
theorem releasedCommandHasNoEffect : Obligations.ReleasedCommandHasNoEffect :=
  ⟨rfl, exec_released⟩

end Sys2Proof.Machine
end

section
/-!
PROOFS. A command word presented while a command is in progress (R173): the move step_command and step_reserved do not
speak of, since both ask that no command is in progress.
-/

namespace Sys2Proof.Machine

/-- R173: a command word, legal or reserved, is not accepted while a command is in progress. -/
theorem step_command_hung {s : State} {w : CmdWord} {rest : List Input} (hh : s.hung = true)
    (hin : s.inputs = .command w :: rest) : step s = .fault .commandInProgress := by
  simp [step, nextMove, hin, hh]

/-- Settles O29: the word is not looked at. -/
theorem noCommandIsAcceptedDuringACommand : Obligations.NoCommandIsAcceptedDuringACommand :=
  fun _ _ _ hh hin => step_command_hung hh hin

end Sys2Proof.Machine
end
